-- ==== Sys2Proof/Word.lean ====
section
/-! DEFINITION. The words of the machine: bytes, 16-bit addresses and 32-bit host words (R10, R12 of 00_scope.md). -/

namespace Sys2Proof

/-- A byte on the wire (R10). -/
abbrev Byte := BitVec 8

/-- A host word (R10, R61). -/
abbrev Word := BitVec 32

end Sys2Proof
end

