-- ==== Sys2Proof/Syntax.lean ====
section
/-! DEFINITION. The instructions: one constructor for each row of spec/opcode_table.json, in the table's order. -/

namespace Sys2Proof

/-- The kinds of a received frame (R104 of 30_encoding.md). -/
inductive Kind where
  | sync | syncOther | response | info | led | battery | charger | acPhase | dataOther
  | badStart | badType | short | chkDiscard
  deriving DecidableEq, Repr

/-- The states of SetSwitchState (R103): 0x04, 0x05, 0x06, 0x07. -/
inductive SwitchState where
  | sleep | chargerOnly | inverterOnly | chargerInverter
  deriving DecidableEq, Repr

/-- What the host chooses for every request beside its payload: ENQ_DESC1.ADDRESS, half of the coalescing key
(R119, R214), and whether it writes ENQUEUE.C or ENQUEUE (R114). -/
structure Target where
  address : BitVec 16
  coalesce : Bool
  deriving DecidableEq, Repr

/-- RESP_EXP and EXP_CODE (R118), where the spec fixes no response code for the payload command. -/
structure Reply where
  respExp : Bool
  expCode : Byte
  deriving DecidableEq, Repr

/-- The fields of an `enq` request (R123): the descriptor of R118 and R119 and the payload bytes. -/
structure Request where
  command : Byte
  address : BitVec 16
  expCode : Byte
  respExp : Bool
  idInPayload : Bool
  coalesce : Bool
  payload : List Byte
  deriving DecidableEq, Repr

/-- One constructor for each row of the opcode table.

Host commands carry what R114 reads of the CMD word. Frame kinds carry the completed raw frame. Payload commands
carry the request's target, the byte the host left at payload byte 1, and the body of the row's rule; the rows with
no given response code carry the host's choice of it. -/
inductive Instr where
  -- host commands (R115)
  | nop
  | enqueue
  | enqueueC
  | expire
  | harvest
  | maintain
  | popResp
  | popRaw
  | clrCounters
  | reserved (op : Byte)
  -- received-frame kinds (R104)
  | rxSync (r : List Byte)
  | rxSyncOther (r : List Byte)
  | rxResponse (r : List Byte)
  | rxInfo (r : List Byte)
  | rxLed (r : List Byte)
  | rxBattery (r : List Byte)
  | rxCharger (r : List Byte)
  | rxAcPhase (r : List Byte)
  | rxDataOther (r : List Byte)
  | rxBadStart (r : List Byte)
  | rxBadType (r : List Byte)
  | rxShort (r : List Byte)
  | rxChkDiscard (r : List Byte)
  -- payload commands (R112)
  | paySendSoftwareVersionPart0 (t : Target) (b1 : Byte) (body : List Byte)
  | paySendSoftwareVersionPart1 (t : Target) (b1 : Byte) (body : List Byte)
  | payGetSetDeviceState (t : Target) (b1 : Byte) (body : List Byte)
  | payReadRamVar (t : Target) (b1 : Byte) (indices : List Byte)
  | payReadSetting (t : Target) (b1 lo hi : Byte)
  | payWriteRamVar (t : Target) (a : Reply) (b1 : Byte) (body : List Byte)
  | payWriteSetting (t : Target) (a : Reply) (b1 : Byte) (body : List Byte)
  | payWriteData (t : Target) (a : Reply) (b1 : Byte) (body : List Byte)
  | payGetSettingInfo (t : Target) (b1 lo hi : Byte)
  | payGetRamVarInfo (t : Target) (b1 lo hi : Byte)
  | payWriteViaId (t : Target) (b1 flags address lo hi : Byte)
  | payReadSnapShot (t : Target) (a : Reply) (b1 : Byte) (body : List Byte)
  | paySetSwitchState (t : Target) (st : SwitchState)
  deriving DecidableEq, Repr

/-- What the machine fetches: a word the HOST writes to CMD (R280), a frame whose terminator the ENGINE has taken
(R175), or a request the HOST makes (R123). -/
inductive Parcel where
  | cmd (w : Word)
  | frame (r : List Byte)
  | request (q : Request)
  deriving DecidableEq, Repr

end Sys2Proof
end

