-- ==== Sys2Proof/Machine/Codec.lean ====
section
/-! DEFINITION. The frame codec of 40_codec.md (pure functions on byte sequences) and the wire constants of R90. -/

namespace Sys2Proof

/-- MK3_ID_0 (R90). -/
def mk3Id0 : Byte := 0x98#8
/-- MK3_ID_1 (R90). -/
def mk3Id1 : Byte := 0xF7#8
/-- MP_ID_0 and MP_ID_1, which are the same byte (R90). -/
def mpId : Byte := 0x83#8
/-- SYNC_FRAME (R90). -/
def syncFrame : Byte := 0xFD#8
/-- DATA_FRAME (R90). -/
def dataFrame : Byte := 0xFE#8
/-- SYNC_BYTE (R90). -/
def syncByte : Byte := 0x55#8
/-- END_OF_FRAME (R90). -/
def endOfFrame : Byte := 0xFF#8
/-- The escape byte (R90, R94). -/
def escByte : Byte := 0xFA#8

/-- `sum8` (R12): the sum of the bytes modulo 256. -/
def sum8 (s : List Byte) : Byte := s.foldr (· + ·) 0#8

/-- One payload byte, stuffed (R140). -/
def stuffByte (b : Byte) : List Byte :=
  if escByte ≤ b then [escByte, (b &&& 0x0F#8) ||| 0x70#8] else [b]

/-- `stuff` (R140). -/
def stuff (p : List Byte) : List Byte := p.flatMap stuffByte

/-- `destuff` (R142): a left-to-right scan up to the terminator; an escape consumes its follower, and an escape byte
that is the last byte before the terminator is kept. -/
def destuff : List Byte → List Byte
  | [] => [endOfFrame]
  | [_] => [endOfFrame]
  | a :: b :: rest =>
    if a = escByte ∧ rest ≠ [] then (b ||| 0x80#8) :: destuff rest
    else a :: destuff (b :: rest)

/-- `chk_value` (R144). -/
def chkValue (s : List Byte) : Byte := 0x01#8 - sum8 s

/-- `chk_encode` (R145). -/
def chkEncode (c : Byte) : List Byte :=
  if c ≤ 0xFA#8 then [c] else [escByte, c - 0xFA#8]

/-- A frame's checksum and terminator after its body, which begins with the two id bytes (R144, R146). -/
def sealFrame (body : List Byte) : List Byte :=
  body ++ chkEncode (chkValue (body.drop 2)) ++ [endOfFrame]

/-- `build_frame` (R146): only the payload is stuffed (R141). -/
def buildFrame (nr : Byte) (p : List Byte) : List Byte :=
  sealFrame ([mk3Id0, mk3Id1, dataFrame, nr &&& 0x7F#8] ++ stuff p)

/-- `validate` (R147): the raw bytes 2 to n-2 sum to 0x01. -/
def validate (r : List Byte) : Bool :=
  decide (4 ≤ r.length) && (sum8 (r.drop 2).dropLast == 0x01#8)

/-- The code of a kind in RAW_HDR.KIND (R104). -/
def Kind.code : Kind → Byte
  | .sync => 0x01#8
  | .syncOther => 0x02#8
  | .response => 0x03#8
  | .info => 0x04#8
  | .led => 0x05#8
  | .battery => 0x06#8
  | .charger => 0x07#8
  | .acPhase => 0x08#8
  | .dataOther => 0x09#8
  | .badStart => 0x81#8
  | .badType => 0x82#8
  | .short => 0x83#8
  | .chkDiscard => 0x84#8

/-- The start check (R178): the raw bytes 0 and 1 are the peer's id pair. -/
def startOk : List Byte → Bool
  | a :: b :: _ => a == mpId && b == mpId
  | _ => false

/-- The start, length and type checks that come before the checksum (R177, R179). -/
def headOk (r : List Byte) : Bool :=
  startOk r && decide (4 ≤ r.length) && (r[2]? == some syncFrame || r[2]? == some dataFrame)

/-- The tag `chk_ok` (R177): the checksum's verdict for a frame that gets as far as the checksum, else 0. -/
def chkOk (r : List Byte) : Bool := headOk r && validate r

end Sys2Proof
end

