-- ==== Sys2Proof/WellFormed.lean ====
section
/-! DEFINITION. Which instructions the encodings admit. The conditions on frames are those of the table of R104 and of
R185, on the raw and the destuffed frame, not the decoder's sequence of tests. -/

namespace Sys2Proof

/-- A completed frame ends with the terminator (R175). -/
def terminated (r : List Byte) : Bool := r.getLast? == some endOfFrame

/-- Start and type good, and the checksum valid or not enforced (R104, R185 conditions 1 to 3). -/
def accepted (enforce : Bool) (r : List Byte) : Bool :=
  headOk r && (validate r || !enforce)

/-- The length of the destuffed frame, counting the terminator (R180). -/
def destuffedLen (r : List Byte) : Nat := (destuff r).length

/-- The destuffed byte 4 is `k` (R104). -/
def kindByteIs (k : Byte) (r : List Byte) : Bool := (destuff r)[4]? == some k

/-- An accepted frame of type SYNC_FRAME. -/
def syncType (enforce : Bool) (r : List Byte) : Bool := accepted enforce r && r[2]? == some syncFrame

/-- An accepted frame of type DATA_FRAME. -/
def dataType (enforce : Bool) (r : List Byte) : Bool := accepted enforce r && r[2]? == some dataFrame

/-- A row of R104 with a fixed kind byte: type 0xFE, `d[4] = k`, `m ≥ low`. -/
def dataKind (enforce : Bool) (k : Byte) (low : Nat) (r : List Byte) : Bool :=
  terminated r && dataType enforce r && kindByteIs k r && decide (low ≤ destuffedLen r)

/-- The payload fits the staging registers: 3 template bytes (R96) and at most 29 of body (R124). -/
def bodyFits (body : List Byte) : Bool := decide (body.length ≤ 29)

/-- The two forms of R110: no body, or a `[command, state]` pair. -/
def pairBody (body : List Byte) : Bool := decide (body.length = 0) || decide (body.length = 2)

/-- The operands an encoding of the instruction admits. Frame kinds depend on CTRL.CHK_ENFORCE (R104). -/
def Instr.wf (enforce : Bool) : Instr → Bool
  | .nop | .enqueue | .enqueueC | .expire | .harvest | .maintain | .popResp | .popRaw | .clrCounters => true
  | .reserved op => decide (0x08#8 ≤ op)
  | .rxSync r => terminated r && syncType enforce r && (decide (destuffedLen r = 10) && kindByteIs syncByte r)
  | .rxSyncOther r =>
    terminated r && syncType enforce r && !(decide (destuffedLen r = 10) && kindByteIs syncByte r)
  | .rxResponse r => dataKind enforce 0x00#8 8 r
  | .rxInfo r => dataKind enforce 0x20#8 6 r
  | .rxLed r => dataKind enforce 0x41#8 6 r
  | .rxBattery r => dataKind enforce 0x70#8 6 r
  | .rxCharger r => dataKind enforce 0x80#8 6 r
  | .rxAcPhase r => dataKind enforce 0xE4#8 6 r
  | .rxDataOther r =>
    terminated r && dataType enforce r && decide (6 ≤ destuffedLen r) &&
      !([0x00#8, 0x20#8, 0x41#8, 0x70#8, 0x80#8, 0xE4#8].any fun k => kindByteIs k r)
  | .rxBadStart r => terminated r && !startOk r
  | .rxBadType r =>
    terminated r && startOk r && decide (4 ≤ r.length) &&
      !(r[2]? == some syncFrame || r[2]? == some dataFrame)
  | .rxShort r =>
    terminated r && startOk r &&
      (decide (r.length < 4) ||
        (dataType enforce r &&
          (decide (destuffedLen r < 6) || (kindByteIs 0x00#8 r && decide (destuffedLen r < 8)))))
  | .rxChkDiscard r => terminated r && headOk r && !validate r && enforce
  | .paySendSoftwareVersionPart0 _ _ body => pairBody body
  | .paySendSoftwareVersionPart1 _ _ body => pairBody body
  | .payGetSetDeviceState _ _ body => pairBody body
  | .payReadRamVar _ _ indices => decide (1 ≤ indices.length) && decide (indices.length ≤ 6)
  | .payReadSetting _ _ _ _ => true
  | .payWriteRamVar _ _ _ body => bodyFits body
  | .payWriteSetting _ _ _ body => bodyFits body
  | .payWriteData _ _ _ body => bodyFits body
  | .payGetSettingInfo _ _ _ _ => true
  | .payGetRamVarInfo _ _ _ _ => true
  | .payWriteViaId _ _ flags _ _ _ => decide (flags ≤ 0x03#8)
  | .payReadSnapShot _ _ _ body => bodyFits body
  | .paySetSwitchState _ _ => true

end Sys2Proof
end

