-- ==== Sys2Proof/Decode.lean ====
section
/-! DEFINITION. The decoders (R114, R115, R177, R96-R103) and, after them, the encoder. A command word is decoded by its
opcode, a completed frame by its kind, a request by its payload's form. -/

namespace Sys2Proof

/-- The command of a CMD word (R280): OPCODE = w[7:0]; C = w[8], read for opcode 0x01 only (R114). Every word has one. -/
def decodeCmd (w : Word) : Instr :=
  match (w.extractLsb' 0 8).toNat with
  | 0 => .nop
  | 1 => if w.getLsbD 8 then .enqueueC else .enqueue
  | 2 => .expire
  | 3 => .harvest
  | 4 => .maintain
  | 5 => .popResp
  | 6 => .popRaw
  | 7 => .clrCounters
  | _ => .reserved (w.extractLsb' 0 8)

/-- The dispatch of a data frame on its destuffed byte 4 (R177). -/
def decodeDataKind (r d : List Byte) : Instr :=
  match (d.getD 4 0#8).toNat with
  | 0x00 => if 8 ≤ d.length then .rxResponse r else .rxShort r
  | 0x20 => .rxInfo r
  | 0x41 => .rxLed r
  | 0x70 => .rxBattery r
  | 0x80 => .rxCharger r
  | 0xE4 => .rxAcPhase r
  | _ => .rxDataOther r

/-- The destuffed checks of R177: type, then length, then byte 4. -/
def decodeDestuffed (r d : List Byte) : Instr :=
  if d[2]? = some syncFrame then
    if d.length = 10 ∧ d[4]? = some syncByte then .rxSync r else .rxSyncOther r
  else if d.length < 6 then .rxShort r
  else decodeDataKind r d

/-- `classify` (R177, in the order of R105), for the value of CTRL.CHK_ENFORCE. Every completed frame has one kind. -/
def decodeFrame (enforce : Bool) (r : List Byte) : Instr :=
  if r.length < 2 ∨ r[0]? ≠ some mpId ∨ r[1]? ≠ some mpId then .rxBadStart r
  else if r.length < 4 then .rxShort r
  else if r[2]? ≠ some syncFrame ∧ r[2]? ≠ some dataFrame then .rxBadType r
  else if validate r = false ∧ enforce = true then .rxChkDiscard r
  else decodeDestuffed r (destuff r)

/-- The switch state of a SetSwitchState payload (R103). -/
def decodeSwitch (state : Byte) : Option SwitchState :=
  match state.toNat with
  | 0x04 => some .sleep
  | 0x05 => some .chargerOnly
  | 0x06 => some .inverterOnly
  | 0x07 => some .chargerInverter
  | _ => none

/-- The payload commands of the template `0x00 id code body` (R96), by the command code (R112) and the body's form. -/
def decodeCoded (t : Target) (a : Reply) (b1 code : Byte) (body : List Byte) : Option Instr :=
  match code.toNat, body with
  | 0x05, body => if pairBody body then some (.paySendSoftwareVersionPart0 t b1 body) else none
  | 0x06, body => if pairBody body then some (.paySendSoftwareVersionPart1 t b1 body) else none
  | 0x0E, body => if pairBody body then some (.payGetSetDeviceState t b1 body) else none
  | 0x30, body => if 1 ≤ body.length ∧ body.length ≤ 6 then some (.payReadRamVar t b1 body) else none
  | 0x31, [lo, hi] => some (.payReadSetting t b1 lo hi)
  | 0x32, body => some (.payWriteRamVar t a b1 body)
  | 0x33, body => some (.payWriteSetting t a b1 body)
  | 0x34, body => some (.payWriteData t a b1 body)
  | 0x35, [lo, hi] => some (.payGetSettingInfo t b1 lo hi)
  | 0x36, [lo, hi] => some (.payGetRamVarInfo t b1 lo hi)
  | 0x37, [flags, address, lo, hi] => if flags ≤ 0x03#8 then some (.payWriteViaId t b1 flags address lo hi) else none
  | 0x38, body => some (.payReadSnapShot t a b1 body)
  | _, _ => none

/-- The command code of a payload command (R112; 0x3F is the first byte of the short form of R103). -/
def Instr.payCode : Instr → Option Byte
  | .paySendSoftwareVersionPart0 _ _ _ => some 0x05#8
  | .paySendSoftwareVersionPart1 _ _ _ => some 0x06#8
  | .payGetSetDeviceState _ _ _ => some 0x0E#8
  | .payReadRamVar _ _ _ => some 0x30#8
  | .payReadSetting _ _ _ _ => some 0x31#8
  | .payWriteRamVar _ _ _ _ => some 0x32#8
  | .payWriteSetting _ _ _ _ => some 0x33#8
  | .payWriteData _ _ _ _ => some 0x34#8
  | .payGetSettingInfo _ _ _ _ => some 0x35#8
  | .payGetRamVarInfo _ _ _ _ => some 0x36#8
  | .payWriteViaId _ _ _ _ _ _ => some 0x37#8
  | .payReadSnapShot _ _ _ _ => some 0x38#8
  | .paySetSwitchState _ _ => some 0x3F#8
  | _ => none

/-- The expected response code R113 gives a command code, the "ok" code; none where R113 gives none. -/
def expectedCode (code : Byte) : Option Byte :=
  match code.toNat with
  | 0x05 | 0x06 => some 0x82#8
  | 0x0E => some 0x94#8
  | 0x30 => some 0x85#8
  | 0x31 => some 0x86#8
  | 0x35 => some 0x89#8
  | 0x36 => some 0x8E#8
  | 0x37 => some 0x87#8
  | _ => none

/-- The payload of the short form (R103). -/
def switchByte : SwitchState → Byte
  | .sleep => 0x04#8
  | .chargerOnly => 0x05#8
  | .inverterOnly => 0x06#8
  | .chargerInverter => 0x07#8

/-- The request of a template payload under the host contract (log 8): COMMAND is the command code (R112),
ID_IN_PAYLOAD is 1 (R96), the response code is R113's and a response is expected where R113 gives one, and the host's
choice where it gives none. -/
def codedRequest (t : Target) (a : Reply) (b1 code : Byte) (body : List Byte) : Request where
  command := code
  address := t.address
  expCode := (expectedCode code).getD a.expCode
  respExp := (expectedCode code).isSome || a.respExp
  idInPayload := true
  coalesce := t.coalesce
  payload := [0x00#8, b1, code] ++ body

/-- The request of the short form (R103): no id in the payload, no response expected; COMMAND and EXP_CODE as in the
spec's program P3 (log 8). -/
def switchRequest (t : Target) (st : SwitchState) : Request where
  command := 0x3F#8
  address := t.address
  expCode := 0x00#8
  respExp := false
  idInPayload := false
  coalesce := t.coalesce
  payload := [0x3F#8, switchByte st, 0x00#8, 0x00#8, 0x00#8]

/-- The reply choice that stands for a row whose code R113 gives. -/
def noReply : Reply := { respExp := false, expCode := 0x00#8 }

/-- The payload command of a request that keeps the host contract, and none for any other request, which VBFE carries
all the same (R112). -/
def decodeRequest (q : Request) : Option Instr :=
  let t : Target := { address := q.address, coalesce := q.coalesce }
  let a : Reply := { respExp := q.respExp, expCode := q.expCode }
  match q.payload with
  | 0x3F#8 :: state :: rest =>
    match decodeSwitch state with
    | some st => if rest = [0x00#8, 0x00#8, 0x00#8] ∧ q = switchRequest t st then some (.paySetSwitchState t st) else none
    | none => none
  | 0x00#8 :: b1 :: code :: body =>
    if body.length ≤ 29 ∧ q = codedRequest t a b1 code body then decodeCoded t a b1 code body else none
  | _ => none

/-- Why a parcel is no instruction. -/
inductive DecodeError where
  /-- A frame without the terminator at its end is not complete (R175). -/
  | notTerminated
  /-- A request that is none of the table's payload commands under the host contract. -/
  | unknownRequest
  deriving DecidableEq, Repr

/-- The decoder of every parcel, for the value of CTRL.CHK_ENFORCE. -/
def decode (enforce : Bool) : Parcel → Except DecodeError Instr
  | .cmd w => .ok (decodeCmd w)
  | .frame r => if r.getLast? = some endOfFrame then .ok (decodeFrame enforce r) else .error .notTerminated
  | .request q =>
    match decodeRequest q with
    | some i => .ok i
    | none => .error .unknownRequest

/-! The encoder. -/

/-- The parcel of an instruction. Ignored bits of a command word are written 0 (R114). -/
def encode : Instr → Parcel
  | .nop => .cmd 0x00000000#32
  | .enqueue => .cmd 0x00000001#32
  | .enqueueC => .cmd 0x00000101#32
  | .expire => .cmd 0x00000002#32
  | .harvest => .cmd 0x00000003#32
  | .maintain => .cmd 0x00000004#32
  | .popResp => .cmd 0x00000005#32
  | .popRaw => .cmd 0x00000006#32
  | .clrCounters => .cmd 0x00000007#32
  | .reserved op => .cmd (op.setWidth 32)
  | .rxSync r => .frame r
  | .rxSyncOther r => .frame r
  | .rxResponse r => .frame r
  | .rxInfo r => .frame r
  | .rxLed r => .frame r
  | .rxBattery r => .frame r
  | .rxCharger r => .frame r
  | .rxAcPhase r => .frame r
  | .rxDataOther r => .frame r
  | .rxBadStart r => .frame r
  | .rxBadType r => .frame r
  | .rxShort r => .frame r
  | .rxChkDiscard r => .frame r
  | .paySendSoftwareVersionPart0 t b1 body => .request (codedRequest t noReply b1 0x05#8 body)
  | .paySendSoftwareVersionPart1 t b1 body => .request (codedRequest t noReply b1 0x06#8 body)
  | .payGetSetDeviceState t b1 body => .request (codedRequest t noReply b1 0x0E#8 body)
  | .payReadRamVar t b1 indices => .request (codedRequest t noReply b1 0x30#8 indices)
  | .payReadSetting t b1 lo hi => .request (codedRequest t noReply b1 0x31#8 [lo, hi])
  | .payWriteRamVar t a b1 body => .request (codedRequest t a b1 0x32#8 body)
  | .payWriteSetting t a b1 body => .request (codedRequest t a b1 0x33#8 body)
  | .payWriteData t a b1 body => .request (codedRequest t a b1 0x34#8 body)
  | .payGetSettingInfo t b1 lo hi => .request (codedRequest t noReply b1 0x35#8 [lo, hi])
  | .payGetRamVarInfo t b1 lo hi => .request (codedRequest t noReply b1 0x36#8 [lo, hi])
  | .payWriteViaId t b1 flags address lo hi => .request (codedRequest t noReply b1 0x37#8 [flags, address, lo, hi])
  | .payReadSnapShot t a b1 body => .request (codedRequest t a b1 0x38#8 body)
  | .paySetSwitchState t st => .request (switchRequest t st)

/-! The words of the opcode table. -/

/-- The number of zero body bytes that completes a payload row's code to a payload of the row's form (R98, R100-R102). -/
def tableBodyLen (code : Nat) : Nat :=
  match code with
  | 0x30 => 1
  | 0x31 | 0x35 | 0x36 => 2
  | 0x37 => 4
  | _ => 0

/-- The codes of the table's payload rows. -/
def payloadCodes : List Nat := [0x05, 0x06, 0x0E, 0x30, 0x31, 0x32, 0x33, 0x34, 0x35, 0x36, 0x37, 0x38, 0x3F]

/-- The parcel of a payload row's code: every other bit of the request is 0. -/
def tableRequest (code : Nat) : Request :=
  let t : Target := { address := 0#16, coalesce := false }
  if code = 0x3F then switchRequest t .sleep
  else codedRequest t noReply 0x00#8 (BitVec.ofNat 8 code) (List.replicate (tableBodyLen code) 0x00#8)

/-- A whole frame with a frame row's 16-bit key (R105): type byte w[15:8] and kind byte w[7:0], every other byte 0,
stuffed and sealed as the peer does (R92, R106). -/
def tableFrame (w : Nat) : List Byte :=
  sealFrame ([mpId, mpId, BitVec.ofNat 8 (w / 256), 0x00#8] ++ stuff [BitVec.ofNat 8 w, 0x00#8, 0x00#8, 0x00#8])

/-- Which of the table's three interfaces the bits `w` of a row of `nbits` bits belong to. A row of at most 8 bits is a
payload code unless it is a host opcode below 8; a row of at most 16 bits is a frame key when its type byte is 0xFD or
0xFE; everything else is a CMD word (log 11). -/
def tableParcel (nbits w : Nat) : Parcel :=
  if nbits ≤ 8 ∧ 8 ≤ w ∧ payloadCodes.contains w then .request (tableRequest w)
  else if nbits ≤ 16 ∧ (w / 256 = 0xFD ∨ w / 256 = 0xFE) then .frame (tableFrame w)
  else .cmd (BitVec.ofNat 32 w)

/-- The instruction the decoder reads from a table row's bits, with CTRL.CHK_ENFORCE at its reset value. -/
def decodeTableWord (nbits w : Nat) : Option Instr := (decode false (tableParcel nbits w)).toOption

end Sys2Proof
end

