-- ==== Sys2Proof/Config.lean ====
section
/-! DEFINITION. What an implementation fixes (R9 of 00_scope.md) and the values the spec leaves to others. -/

namespace Sys2Proof

/-- The OPEN parameters of R9. They are compile-time options: fixed for the life of the model (R351). -/
structure Config where
  fifoSize : Nat
  maxBufferSize : Nat
  rawFifoDepth : Nat
  responseTimeout : Nat
  maxResend : Nat
  respFifoDepth : Nat
  rxFifoDepth : Nat
  txFifoDepth : Nat
  deriving DecidableEq, Repr

/-- The ranges R9 admits. -/
abbrev Config.Valid (c : Config) : Prop :=
  (1 ≤ c.fifoSize ∧ c.fifoSize ≤ 127) ∧
  (19 ≤ c.maxBufferSize ∧ c.maxBufferSize ≤ 64) ∧
  (1 ≤ c.rawFifoDepth ∧ c.rawFifoDepth ≤ 255) ∧
  (1 ≤ c.responseTimeout ∧ c.responseTimeout ≤ 2147483647) ∧
  c.maxResend ≤ 255 ∧
  (1 ≤ c.respFifoDepth ∧ c.respFifoDepth ≤ 255) ∧
  (1 ≤ c.rxFifoDepth ∧ c.rxFifoDepth ≤ 255) ∧
  (1 ≤ c.txFifoDepth ∧ c.txFifoDepth ≤ 255)

/-- The reference configuration of R9. DESIGN CHOICE for `State.reset` (log 2). -/
def Config.reference : Config where
  fifoSize := 32
  maxBufferSize := 32
  rawFifoDepth := 4
  responseTimeout := 100
  maxResend := 2
  respFifoDepth := 4
  rxFifoDepth := 32
  txFifoDepth := 32

/-- PAYLOAD_MAX, fixed at 32 (R9). -/
def payloadMax : Nat := 32

/-- What the platform answers to a host read at an offset outside the block (R61, U7): a free value of the
use's number and the offset. It has no body, so no proof can see a value of it (log 7). -/
opaque Config.platformRead : Nat → Word → Word

end Sys2Proof
end

