-- ==== Sys2Proof/Machine/State.lean ====
section
/-! DEFINITION. The state of the machine (10_state.md) as plain data, its reset value (R350), and the reasons a step can
stop. -/

namespace Sys2Proof.Machine

/-- The ENGINE's state register `eng` (R21). The values 5, 6 and 7 never occur and have no constructor. -/
inductive Eng where
  | rx | tx | flush | paused | resume
  deriving DecidableEq, Repr

/-- The agents of R8, and the reset input of R350. -/
inductive Agent where
  | engine | host | wireRx | wireTx | clock | rst
  deriving DecidableEq, Repr

/-- What the HOST can do: a word read or write (R61), or a whole `enq` request (R123). -/
inductive HostOp where
  | read (addr : Word)
  | write (addr w : Word)
  | request (q : Request)
  deriving DecidableEq, Repr

/-- An entry of the registry (R31). `len` is the payload's length and `resp_len` is the length of `resp`. -/
structure Entry where
  id : Byte
  command : Byte
  address : BitVec 16
  expCode : Byte
  respExp : Bool
  payload : List Byte
  isSent : Bool
  sentTime : Word
  resend : Byte
  resp : List Byte
  deriving DecidableEq, Repr

/-- An element of `respq` (R34). -/
structure RespRec where
  id : Byte
  command : Byte
  address : BitVec 16
  resp : List Byte
  deriving DecidableEq, Repr

/-- An element of `rawq` (R35). `len` is the length of `bytes`. -/
structure RawRec where
  bytes : List Byte
  kind : Kind
  chkOk : Bool
  matched : Bool
  deriving DecidableEq, Repr

/-- The names of the event counters (R40), in the order of the register map (R64). -/
inductive Counter where
  | frame | sync | tx | rxqOvr | rxbufOvf | badStart | badType | short | chkFail | unmatched | rawDrop
  | retryMismatch | retryTimeout | drop | respStall
  deriving DecidableEq, Repr

/-- The event counters (R40). -/
structure Counters where
  frame : Word
  sync : Word
  tx : Word
  rxqOvr : Word
  rxbufOvf : Word
  badStart : Word
  badType : Word
  short : Word
  chkFail : Word
  unmatched : Word
  rawDrop : Word
  retryMismatch : Word
  retryTimeout : Word
  drop : Word
  respStall : Word
  deriving DecidableEq, Repr

/-- Every counter 0: their reset value, and what CLR_COUNTERS leaves (R40, R288). -/
def Counters.zero : Counters where
  frame := 0#32
  sync := 0#32
  tx := 0#32
  rxqOvr := 0#32
  rxbufOvf := 0#32
  badStart := 0#32
  badType := 0#32
  short := 0#32
  chkFail := 0#32
  unmatched := 0#32
  rawDrop := 0#32
  retryMismatch := 0#32
  retryTimeout := 0#32
  drop := 0#32
  respStall := 0#32

/-- The state. Field by field as INVENTORY.md lists it; the last five fields are the model's own. -/
structure State where
  /-- The parameters of R9. -/
  cfg : Config
  /-- R21. -/
  eng : Eng
  /-- The assembly buffer (R23). -/
  rxbuf : List Byte
  /-- The RX FIFO (R24). -/
  rxq : List Byte
  /-- The TX FIFO (R25). -/
  txq : List Byte
  /-- The frame being sent (R26); `tx_len` is its length. -/
  txbuf : List Byte
  /-- `tx_idx` (R26). -/
  txIdx : Nat
  /-- DIR (R27): true is TX. -/
  dir : Bool
  /-- The bytes put on the bus (R28). -/
  txlog : List Byte
  /-- `reg.slot[0..count-1]` (R30); `count` is the length. -/
  slots : List Entry
  /-- `id_ctr` (R33). -/
  idCtr : Byte
  /-- R34. -/
  respq : List RespRec
  /-- R35. -/
  rawq : List RawRec
  /-- ENQ_DESC0 (R36). -/
  enqDesc0 : Word
  /-- ENQ_DESC1 (R36). -/
  enqDesc1 : Word
  /-- ENQ_PAYLOAD words 0 to 7 (R36). -/
  enqPayload : Vector Word 8
  /-- CTRL (R37). -/
  ctrl : Word
  /-- RESULT (R39). -/
  result : Word
  /-- R40. -/
  counters : Counters
  /-- `now_ms` (R41). -/
  nowMs : Word
  /-- The HOST is between the two steps of MAINTAIN (R285, log 5). -/
  maint : Bool
  /-- The word the last host read returned (log 6). -/
  rdata : Word
  /-- The HOST's coming accesses (log 1). -/
  hostq : List HostOp
  /-- The bytes the peer will send (log 1). -/
  busq : List Byte
  /-- The agents that move next (log 1). -/
  sched : List Agent
  /-- How many free values have been taken (log 7). -/
  freeCtr : Nat
  deriving DecidableEq, Repr

/-- The machine right after reset (R350) with parameters `cfg` and clock `now`, and no environment. -/
def State.resetWith (cfg : Config) (now : Word) : State where
  cfg := cfg
  eng := .rx
  rxbuf := []
  rxq := []
  txq := []
  txbuf := []
  txIdx := 0
  dir := false
  txlog := []
  slots := []
  idCtr := 0x80#8
  respq := []
  rawq := []
  enqDesc0 := 0x00000000#32
  enqDesc1 := 0x00000000#32
  enqPayload := #v[0#32, 0#32, 0#32, 0#32, 0#32, 0#32, 0#32, 0#32]
  ctrl := 0x00000000#32
  result := 0x00000000#32
  counters := Counters.zero
  nowMs := now
  maint := false
  rdata := 0#32
  hostq := []
  busq := []
  sched := []
  freeCtr := 0

/-- The machine right after reset. DESIGN CHOICE: the reference configuration of R9 (log 2) and `now_ms` = 0, which R41
leaves to the CLOCK (log 4). -/
def State.reset : State := State.resetWith Config.reference 0#32

/-- Why a step stops. VBFE has no traps (R320), so the spec raises none of these. -/
inductive Fault where
  /-- Raised by the ENGINE's step in TX when `tx_idx` is not below `tx_len`, where R254 has no byte to push. No run
  reaches such a state (R26, R254). Safe: the model stops where the spec says nothing (log 9). -/
  | txIndexPastFrame
  deriving DecidableEq, Repr

/-- Why an instruction has no meaning. -/
inductive Refusal where
  /-- Raised by an arm of `exec` whose instruction has no meaning yet. Safe. No arm raises it: every row has its
  meaning. -/
  | notModelled (mnemonic : String)
  deriving DecidableEq, Repr

end Sys2Proof.Machine
end

