-- ==== Sys2Proof/Machine/Operands.lean ====
section
/-! DEFINITION. Operand forms: the ENQUEUE descriptor and payload (R36, R118, R119), the CTRL bits (R37) and the register
map (R64). -/

namespace Sys2Proof.Machine

/-- CTRL.PAUSE (R37). -/
def State.pause (s : State) : Bool := s.ctrl.getLsbD 0

/-- CTRL.CHK_ENFORCE (R37). -/
def State.chkEnforce (s : State) : Bool := s.ctrl.getLsbD 1

/-- ENQ_DESC0.COMMAND (R36). -/
def State.descCommand (s : State) : Byte := s.enqDesc0.extractLsb' 0 8

/-- ENQ_DESC0.EXP_CODE (R36). -/
def State.descExpCode (s : State) : Byte := s.enqDesc0.extractLsb' 8 8

/-- ENQ_DESC0.RESP_EXP (R36). -/
def State.descRespExp (s : State) : Bool := s.enqDesc0.getLsbD 16

/-- ENQ_DESC0.ID_IN_PAYLOAD (R36). -/
def State.descIdInPayload (s : State) : Bool := s.enqDesc0.getLsbD 17

/-- ENQ_DESC0.LEN (R36), a plain byte count (R118). -/
def State.descLen (s : State) : Nat := (s.enqDesc0.extractLsb' 24 8).toNat

/-- ENQ_DESC1.ADDRESS (R36, R119). -/
def State.descAddress (s : State) : BitVec 16 := s.enqDesc1.extractLsb' 0 16

/-- Byte `k` of a word: bits 8k+7 to 8k (R62). -/
def wordByte (w : Word) (k : Nat) : Byte := w.extractLsb' (8 * k) 8

/-- A word of four bytes, byte 0 in bits 7:0 (R62). -/
def wordOfBytes (b0 b1 b2 b3 : Byte) : Word := b3 ++ b2 ++ b1 ++ b0

/-- Word `k` of a byte window that shows the bytes of `l`, and 0 past its end (R62, R68). -/
def windowWord (l : List Byte) (k : Nat) : Word :=
  wordOfBytes (l.getD (4 * k) 0#8) (l.getD (4 * k + 1) 0#8) (l.getD (4 * k + 2) 0#8) (l.getD (4 * k + 3) 0#8)

/-- The four bytes of a word, low byte first (R62). -/
def wordBytes (w : Word) : List Byte := [wordByte w 0, wordByte w 1, wordByte w 2, wordByte w 3]

/-- The 32 staged payload bytes: byte i in word i div 4, lane i mod 4 (R36). -/
def State.stagedBytes (s : State) : List Byte := s.enqPayload.toList.flatMap wordBytes

/-- The payload ENQUEUE copies: the first LEN staged bytes (R119), with byte 1 replaced by the id when ID_IN_PAYLOAD
is 1 (R214). -/
def State.stagedPayload (s : State) (id : Byte) : List Byte :=
  let p := s.stagedBytes.take s.descLen
  if s.descIdInPayload then p.set 1 id else p

/-- ENQUEUE's length check (R214): 1 to 32, and at least 2 when the id is written into byte 1. -/
def State.badLength (s : State) : Bool :=
  decide (s.descLen < 1) || decide (payloadMax < s.descLen) || (s.descIdInPayload && decide (s.descLen < 2))

/-- The host registers (R64). -/
inductive Reg where
  | ctrl | status | result | cmd | idCtr | nowMs | enqDesc0 | enqDesc1
  | enqPayload (k : Fin 8)
  | cnt (c : Counter)
  | respHdr | respAddr
  | respBytes (k : Fin 16)
  | rawHdr
  | rawBytes (k : Fin 16)
  | reserved
  deriving DecidableEq, Repr

/-- The counters in the order of their offsets 0x040 to 0x078 (R64). -/
def counterAt : Nat → Option Counter
  | 0 => some .frame
  | 1 => some .sync
  | 2 => some .tx
  | 3 => some .rxqOvr
  | 4 => some .rxbufOvf
  | 5 => some .badStart
  | 6 => some .badType
  | 7 => some .short
  | 8 => some .chkFail
  | 9 => some .unmatched
  | 10 => some .rawDrop
  | 11 => some .retryMismatch
  | 12 => some .retryTimeout
  | 13 => some .drop
  | 14 => some .respStall
  | _ => none

/-- The register of word index `n`, that is offset 4n (R64). Every other index is reserved (R65). -/
def regOfIndex (n : Nat) : Reg :=
  if n = 0 then .ctrl
  else if n = 1 then .status
  else if n = 2 then .result
  else if n = 3 then .cmd
  else if n = 4 then .idCtr
  else if n = 5 then .nowMs
  else if n = 6 then .enqDesc0
  else if n = 7 then .enqDesc1
  else if h : 8 ≤ n ∧ n < 16 then .enqPayload ⟨n - 8, by omega⟩
  else if 16 ≤ n ∧ n < 32 then
    match counterAt (n - 16) with
    | some c => .cnt c
    | none => .reserved
  else if n = 32 then .respHdr
  else if n = 33 then .respAddr
  else if h : 34 ≤ n ∧ n < 50 then .respBytes ⟨n - 34, by omega⟩
  else if n = 64 then .rawHdr
  else if h : 65 ≤ n ∧ n < 81 then .rawBytes ⟨n - 65, by omega⟩
  else .reserved

/-- An offset of the block's register space (R61). -/
def inBlock (addr : Word) : Bool := decide (addr.toNat < 0x200)

/-- The register an offset of the block names: address bits 1:0 are ignored (R61). -/
def regAt (addr : Word) : Reg := regOfIndex (addr.toNat / 4)

/-- The offset of CMD (R64). -/
def cmdAddr : Word := 0x00C#32

end Sys2Proof.Machine
end

