-- ==== Sys2Proof/Machine/Flags.lean ====
section
/-! DEFINITION. Status words: STATUS (R38), RESULT (R39, R120), the window headers (R68, R121), and the counters (R40). VBFE
has no condition codes (R43); these words hold its flags. -/

namespace Sys2Proof.Machine

/-- The 3-bit code of `eng` in STATUS.ENG_STATE (R21, R38). -/
def Eng.code : Eng → BitVec 3
  | .rx => 0#3
  | .tx => 1#3
  | .flush => 2#3
  | .paused => 3#3
  | .resume => 4#3

/-- A count in an 8-bit field (R38). -/
def count8 (n : Nat) : BitVec 8 := BitVec.ofNat 8 n

/-- STATUS (R38), computed from the state: RAW_COUNT, RESP_COUNT, REG_COUNT, bit 7 reserved, ENG_STATE, bit 3 reserved,
TX_IDLE, RX_PARTIAL, DIR. -/
def State.status (s : State) : Word :=
  count8 s.rawq.length ++ count8 s.respq.length ++ count8 s.slots.length ++ 0#1 ++ s.eng.code ++ 0#1 ++
    BitVec.ofBool s.txq.isEmpty ++ BitVec.ofBool (!s.rxbuf.isEmpty) ++ BitVec.ofBool s.dir

/-- RESULT.CODE values (R120). -/
inductive ResultCode where
  | ok | fifoFull | idExhausted | badLength | empty | illegal
  deriving DecidableEq, Repr

/-- The numbers of R120. -/
def ResultCode.code : ResultCode → Byte
  | .ok => 0x00#8
  | .fifoFull => 0x01#8
  | .idExhausted => 0x02#8
  | .badLength => 0x03#8
  | .empty => 0x04#8
  | .illegal => 0x05#8

/-- RESULT with only a code (R39). -/
def resultOf (c : ResultCode) : Word := c.code.setWidth 32

/-- RESULT of an ENQUEUE that succeeded: COALESCED<<16 | ID<<8 | OK (R282). -/
def resultEnqueued (id : Byte) (coalesced : Bool) : Word :=
  0#15 ++ BitVec.ofBool coalesced ++ id ++ ResultCode.ok.code

/-- RESULT with the count N in bits 31:24, saturating at 255 (R39, R283, R284). -/
def resultCount (n : Nat) : Word := count8 (min n 255) ++ 0#16 ++ ResultCode.ok.code

/-- RESP_HDR (R68, R121). -/
def State.respHdr (s : State) : Word :=
  match s.respq with
  | [] => 0#32
  | e :: _ => 1#1 ++ 0#7 ++ count8 e.resp.length ++ e.command ++ e.id

/-- RESP_ADDR (R68, R121). -/
def State.respAddr (s : State) : Word :=
  match s.respq with
  | [] => 0#32
  | e :: _ => e.address.setWidth 32

/-- RESP_BYTES word `k` (R68). -/
def State.respWord (s : State) (k : Nat) : Word :=
  match s.respq with
  | [] => 0#32
  | e :: _ => windowWord e.resp k

/-- RAW_HDR (R68, R121). -/
def State.rawHdr (s : State) : Word :=
  match s.rawq with
  | [] => 0#32
  | f :: _ => 1#1 ++ 0#13 ++ BitVec.ofBool f.matched ++ BitVec.ofBool f.chkOk ++ f.kind.code ++ count8 f.bytes.length

/-- RAW_BYTES word `k` (R68). -/
def State.rawWord (s : State) (k : Nat) : Word :=
  match s.rawq with
  | [] => 0#32
  | f :: _ => windowWord f.bytes k

/-- A counter's value. -/
def Counters.get (c : Counters) : Counter → Word
  | .frame => c.frame
  | .sync => c.sync
  | .tx => c.tx
  | .rxqOvr => c.rxqOvr
  | .rxbufOvf => c.rxbufOvf
  | .badStart => c.badStart
  | .badType => c.badType
  | .short => c.short
  | .chkFail => c.chkFail
  | .unmatched => c.unmatched
  | .rawDrop => c.rawDrop
  | .retryMismatch => c.retryMismatch
  | .retryTimeout => c.retryTimeout
  | .drop => c.drop
  | .respStall => c.respStall

/-- One counter incremented modulo 2^32 (R40). -/
def Counters.bump (c : Counters) : Counter → Counters
  | .frame => { c with frame := c.frame + 1#32 }
  | .sync => { c with sync := c.sync + 1#32 }
  | .tx => { c with tx := c.tx + 1#32 }
  | .rxqOvr => { c with rxqOvr := c.rxqOvr + 1#32 }
  | .rxbufOvf => { c with rxbufOvf := c.rxbufOvf + 1#32 }
  | .badStart => { c with badStart := c.badStart + 1#32 }
  | .badType => { c with badType := c.badType + 1#32 }
  | .short => { c with short := c.short + 1#32 }
  | .chkFail => { c with chkFail := c.chkFail + 1#32 }
  | .unmatched => { c with unmatched := c.unmatched + 1#32 }
  | .rawDrop => { c with rawDrop := c.rawDrop + 1#32 }
  | .retryMismatch => { c with retryMismatch := c.retryMismatch + 1#32 }
  | .retryTimeout => { c with retryTimeout := c.retryTimeout + 1#32 }
  | .drop => { c with drop := c.drop + 1#32 }
  | .respStall => { c with respStall := c.respStall + 1#32 }

/-- The events of R321. -/
inductive Event where
  | rxqOverrun | rxDisabled | rxbufOverflow | badStart | short | badType | checksumFail | unmatched | rawDrop
  | retryMismatch | retryTimeout | drop | respStall | fifoFull | idExhausted | badLength | empty | illegalCmd
  deriving DecidableEq, Repr

/-- The counter that records an event (R321). RX_DISABLED has none, and the last five are recorded in RESULT. -/
def Event.counter : Event → Option Counter
  | .rxqOverrun => some .rxqOvr
  | .rxDisabled => none
  | .rxbufOverflow => some .rxbufOvf
  | .badStart => some .badStart
  | .short => some .short
  | .badType => some .badType
  | .checksumFail => some .chkFail
  | .unmatched => some .unmatched
  | .rawDrop => some .rawDrop
  | .retryMismatch => some .retryMismatch
  | .retryTimeout => some .retryTimeout
  | .drop => some .drop
  | .respStall => some .respStall
  | .fifoFull | .idExhausted | .badLength | .empty | .illegalCmd => none

/-- The RESULT code that records an event of a command (R321). -/
def Event.result : Event → Option ResultCode
  | .fifoFull => some .fifoFull
  | .idExhausted => some .idExhausted
  | .badLength => some .badLength
  | .empty => some .empty
  | .illegalCmd => some .illegal
  | .rxqOverrun | .rxDisabled | .rxbufOverflow | .badStart | .short | .badType | .checksumFail | .unmatched
  | .rawDrop | .retryMismatch | .retryTimeout | .drop | .respStall => none

end Sys2Proof.Machine
end

