-- ==== Sys2Proof/Machine/Ops.lean ====
section
/-! DEFINITION. The named operations: events, the registry (42_registry.md), frame processing (R176, R181), the arbiter
(R250-R253), the register accesses (R65, R68, R290-R293), and the steps of the wires, the clock and the reset input.

VBFE takes no exception and returns from none (R320, R327): `State.raise` is the one operation every error goes through. -/

namespace Sys2Proof.Machine

/-! Counters and events. -/

/-- One counter incremented. -/
def State.bump (s : State) (c : Counter) : State := { s with counters := s.counters.bump c }

/-- RESULT written. -/
def State.setResult (s : State) (w : Word) : State := { s with result := w }

/-- `raise` (R13): the event's record of R321, a counter or a RESULT code, and nothing else. -/
def State.raise (s : State) (e : Event) : State :=
  match e.counter, e.result with
  | some c, _ => s.bump c
  | none, some r => s.setResult (resultOf r)
  | none, none => s

/-! The registry. -/

/-- `remove` on a list of entries (R222): the last one takes the place of the one removed. -/
def swapRemove (l : List Entry) (i : Nat) : List Entry :=
  match l.getLast? with
  | some e => (l.set i e).dropLast
  | none => []

/-- `remove(i)` (R222). -/
def State.remove (s : State) (i : Nat) : State := { s with slots := swapRemove s.slots i }

/-- `in_use(c)` (R211). -/
def State.inUse (s : State) (c : Byte) : Bool := s.slots.any fun e => e.id == c

/-- The k-th candidate of `allocate_id` (R212). -/
def idCandidate (ctr : Byte) (k : Nat) : Byte := 0x80#8 ||| ((ctr + BitVec.ofNat 8 k) &&& 0x7F#8)

/-- The counter after id `c` was given out (R213). -/
def idAfter (c : Byte) : Byte := 0x80#8 ||| ((c + 1#8) &&& 0x7F#8)

/-- `allocate_id` (R212): the first of 127 candidates that is not in use. The caller advances the counter. -/
def State.allocateId (s : State) : Option Byte :=
  ((List.range 127).map (idCandidate s.idCtr)).find? fun c => !s.inUse c

/-- The entry ENQUEUE creates (R214): the staged descriptor, with the bookkeeping of R216. -/
def State.newEntry (s : State) (id : Byte) : Entry where
  id := id
  command := s.descCommand
  address := s.descAddress
  expCode := s.descExpCode
  respExp := s.descRespExp
  payload := s.stagedPayload id
  isSent := false
  sentTime := s.nowMs
  resend := 0#8
  resp := []

/-- The coalesce target (R214, R215): the least slot with the staged (command, address). -/
def State.coalesceTarget (s : State) : Option Nat :=
  s.slots.findIdx? fun e => e.command == s.descCommand && e.address == s.descAddress

/-- `enqueue(C)` with its RESULT (R214, R282), once the length is legal and id `id` has been allocated. -/
def State.enqueueAs (s : State) (c : Bool) (id : Byte) : State :=
  let s1 := { s with idCtr := idAfter id }
  match (if c then s.coalesceTarget else none) with
  | some i => { s1 with slots := s.slots.set i (s.newEntry id), result := resultEnqueued id true }
  | none =>
    if s.slots.length < s.cfg.fifoSize then
      { s1 with slots := s.slots ++ [s.newEntry id], result := resultEnqueued id false }
    else s1.raise .fifoFull

/-- The ENQUEUE command (R214, R282), in the order of R324. -/
def State.enqueueCommand (s : State) (c : Bool) : State :=
  if s.badLength then s.raise .badLength
  else
    match s.allocateId with
    | none => s.raise .idExhausted
    | some id => s.enqueueAs c id

/-- The entry that takes a response frame (R218): its id, sent, and no response stored. -/
def takesResponse (d : List Byte) (e : Entry) : Bool := d[5]? == some e.id && e.isSent && e.resp.isEmpty

/-- `match_response(d)` (R218): whether an entry took the frame, and the state after. -/
def State.matchResponse (s : State) (d : List Byte) : Bool × State :=
  match s.slots.findIdx? (takesResponse d) with
  | some i => (true, { s with slots := s.slots.modify i fun e => { e with resp := d } })
  | none => (false, s.raise .unmatched)

/-- The cause of a retry (R219). -/
inductive RetryCause where
  | mismatch | timeout
  deriving DecidableEq, Repr

/-- The event of a retry (R321). -/
def RetryCause.event : RetryCause → Event
  | .mismatch => .retryMismatch
  | .timeout => .retryTimeout

/-- What a retry does to its entry (R219): one more resend, unsent, timed from now, without a response. -/
def Entry.retried (e : Entry) (now : Word) : Entry :=
  { e with resend := e.resend + 1#8, isSent := false, sentTime := now, resp := [] }

/-- `retry_or_drop(i, cause)` on the entry `e` in slot `i` (R219): true when the entry is kept. -/
def State.retryOrDrop (s : State) (i : Nat) (e : Entry) (cause : RetryCause) : Bool × State :=
  if s.cfg.maxResend ≤ e.resend.toNat then (false, (s.remove i).raise .drop)
  else (true, State.raise { s with slots := s.slots.set i (e.retried s.nowMs) } cause.event)

/-- The element of `respq` harvest makes of an entry (R220). -/
def Entry.respRec (e : Entry) : RespRec where
  id := e.id
  command := e.command
  address := e.address
  resp := e.resp

/-- The stored response carries the expected code in byte 6 (R220). -/
def Entry.answered (e : Entry) : Bool := e.resp[6]? == some e.expCode

/-- `harvest` from slot `i` with `n` entries emitted so far (R220). Each turn leaves one entry fewer to examine, so
`fuel` = count - i turns are enough (R223). -/
def State.harvestFrom : Nat → Nat → Nat → State → Nat × State
  | 0, _, n, s => (n, s)
  | fuel + 1, i, n, s =>
    match s.slots[i]? with
    | none => (n, s)
    | some e =>
      if e.resp = [] then harvestFrom fuel (i + 1) n s
      else if e.answered then
        if s.respq.length = s.cfg.respFifoDepth then harvestFrom fuel (i + 1) n (s.raise .respStall)
        else harvestFrom fuel i (n + 1) (State.remove { s with respq := s.respq ++ [e.respRec] } i)
      else
        match s.retryOrDrop i e .mismatch with
        | (true, s') => harvestFrom fuel (i + 1) n s'
        | (false, s') => harvestFrom fuel i n s'

/-- `harvest()` (R220): the number of entries emitted, and the state after. -/
def State.harvest (s : State) : Nat × State := State.harvestFrom s.slots.length 0 0 s

/-- The timeout test (R221), on the difference modulo 2^32. -/
def State.timedOut (s : State) (e : Entry) : Bool :=
  decide (s.cfg.responseTimeout ≤ (s.nowMs - e.sentTime).toNat)

/-- `expire` from slot `i` with `n` entries found so far (R221); `fuel` as in `harvestFrom`. -/
def State.expireFrom : Nat → Nat → Nat → State → Nat × State
  | 0, _, n, s => (n, s)
  | fuel + 1, i, n, s =>
    match s.slots[i]? with
    | none => (n, s)
    | some e =>
      if s.timedOut e then
        match s.retryOrDrop i e .timeout with
        | (true, s') => expireFrom fuel (i + 1) (n + 1) s'
        | (false, s') => expireFrom fuel i (n + 1) s'
      else expireFrom fuel (i + 1) n s

/-- `expire()` (R221): the number of entries found timed out, and the state after. -/
def State.expire (s : State) : Nat × State := State.expireFrom s.slots.length 0 0 s

/-- The second step of MAINTAIN (R285): harvest, then RESULT. -/
def State.maintainFinish (s : State) : State :=
  let h := s.harvest
  { h.2 with result := resultCount h.1, maint := false }

/-! Frames. -/

/-- `push_raw` (R181). -/
def State.pushRaw (s : State) (r : List Byte) (k : Kind) (matched : Bool) : State :=
  if s.rawq.length = s.cfg.rawFifoDepth then s.raise .rawDrop
  else { s with rawq := s.rawq ++ [{ bytes := r, kind := k, chkOk := chkOk r, matched := matched }] }

/-- CHECKSUM_FAIL of a frame that gets as far as the checksum (R179). -/
def State.checksumEvent (s : State) (r : List Byte) : State :=
  if headOk r && !validate r then s.raise .checksumFail else s

/-- What every completed frame does (R176): it is counted, its checksum is judged, it is recorded, and the assembly
buffer is cleared (R182). -/
def State.finishFrame (s : State) (k : Kind) (r : List Byte) (matched : Bool) : State :=
  { ((s.bump .frame).checksumEvent r).pushRaw r k matched with rxbuf := [] }

/-- The registry after the selection of slot `i` holding `e` (R252): marked sent now, and removed when no response is
expected. -/
def State.markSent (s : State) (i : Nat) (e : Entry) : List Entry :=
  let slots := s.slots.set i { e with isSent := true, sentTime := s.nowMs }
  if e.respExp then slots else swapRemove slots i

/-- `select_and_mark(i, fnr)` on the entry `e` in slot `i` (R251-R253). -/
def State.selectAndMark (s : State) (i : Nat) (e : Entry) (fnr : Byte) : State :=
  { s.bump .tx with
    txbuf := buildFrame ((fnr + 1#8) &&& 0x7F#8) e.payload
    txIdx := 0
    slots := s.markSent i e
    dir := true
    eng := .tx }

/-- The least slot whose entry is unsent (R250). -/
def State.firstUnsent (s : State) : Option Nat := s.slots.findIdx? fun e => !e.isSent

/-- `arbitrate(fnr)` (R250). -/
def State.arbitrate (s : State) (fnr : Byte) : State :=
  match s.firstUnsent with
  | none => s
  | some i =>
    match s.slots[i]? with
    | none => s
    | some e => s.selectAndMark i e fnr

/-! Host register accesses. -/

/-- A register's value at a read (R65, R68, R291, R292). -/
def State.readReg (s : State) : Reg → Word
  | .ctrl => s.ctrl
  | .status => s.status
  | .result => s.result
  | .cmd => 0#32
  | .idCtr => s.idCtr.setWidth 32
  | .nowMs => s.nowMs
  | .enqDesc0 => s.enqDesc0
  | .enqDesc1 => s.enqDesc1
  | .enqPayload k => s.enqPayload[k]
  | .cnt c => s.counters.get c
  | .respHdr => s.respHdr
  | .respAddr => s.respAddr
  | .respBytes k => s.respWord k
  | .rawHdr => s.rawHdr
  | .rawBytes k => s.rawWord k
  | .reserved => 0#32

/-- A register write other than CMD's (R65, R290-R293): reserved bits are forced to 0, and read-only and reserved
registers ignore it. A write to CMD runs a command instead (R280). -/
def State.writeReg (s : State) (r : Reg) (w : Word) : State :=
  match r with
  | .ctrl => { s with ctrl := w &&& 0x00000003#32 }
  | .enqDesc0 => { s with enqDesc0 := w &&& 0xFF03FFFF#32 }
  | .enqDesc1 => { s with enqDesc1 := w &&& 0x0000FFFF#32 }
  | .enqPayload k => { s with enqPayload := s.enqPayload.set k w }
  | .status | .result | .cmd | .idCtr | .nowMs | .cnt _ | .respHdr | .respAddr | .respBytes _ | .rawHdr | .rawBytes _
  | .reserved => s

/-- A host read (R61, R66): it changes only the word read. At an offset outside the block the platform answers, with a
free value (U7, log 7). -/
def State.hostRead (s : State) (addr : Word) : State :=
  if inBlock addr then { s with rdata := s.readReg (regAt addr) }
  else { s with rdata := Config.platformRead s.freeCtr addr, freeCtr := s.freeCtr + 1 }

/-- A host write that is not a command (R61, R65). VBFE never sees an offset outside the block. -/
def State.hostWrite (s : State) (addr w : Word) : State :=
  if inBlock addr then s.writeReg (regAt addr) w else s

/-! Requests. -/

/-- ENQ_DESC0 of a request (R118, R123). -/
def requestDesc0 (q : Request) : Word :=
  count8 q.payload.length ++ 0#6 ++ BitVec.ofBool q.idInPayload ++ BitVec.ofBool q.respExp ++ q.expCode ++ q.command

/-- The CMD word of a request: ENQUEUE.C or ENQUEUE (R123). -/
def requestCmdWord (q : Request) : Word := if q.coalesce then 0x00000101#32 else 0x00000001#32

/-- The staging writes of the `enq` pseudo-instruction (R123), each an offset and a word. -/
def requestWrites (q : Request) : List (Word × Word) :=
  [(0x018#32, requestDesc0 q), (0x01C#32, q.address.setWidth 32)] ++
    (List.range ((q.payload.length + 3) / 4)).map fun k =>
      (BitVec.ofNat 32 (0x020 + 4 * k), windowWord q.payload k)

/-- The whole expansion of `enq` as host accesses (R123): the staging writes, then the CMD write. -/
def requestAccesses (q : Request) : List HostOp :=
  (requestWrites q).map (fun p => HostOp.write p.1 p.2) ++ [HostOp.write cmdAddr (requestCmdWord q)]

/-- The staging writes of a request, done. -/
def State.stage (s : State) (q : Request) : State :=
  (requestWrites q).foldl (fun s p => s.hostWrite p.1 p.2) s

/-- A request as consecutive host accesses (R123, log 8): its staging writes, then ENQUEUE or ENQUEUE.C. -/
def State.runRequest (s : State) (q : Request) : State := (s.stage q).enqueueCommand q.coalesce

/-! The ENGINE outside RX (43_arbiter_tx.md), the wires, the clock, and reset. -/

/-- The ENGINE's step in TX (R254). -/
def State.engineTx (s : State) : Host.Outcome State Fault Refusal :=
  if s.txq.length < s.cfg.txFifoDepth then
    match s.txbuf[s.txIdx]? with
    | none => .fault .txIndexPastFrame
    | some b =>
      .next { s with
        txq := s.txq ++ [b]
        txIdx := s.txIdx + 1
        eng := if s.txIdx + 1 = s.txbuf.length then .flush else .tx }
  else .next s

/-- The ENGINE's step in FLUSH (R256). -/
def State.engineFlush (s : State) : State :=
  if s.txq = [] then { s with dir := false, eng := .rx } else s

/-- The ENGINE's step in PAUSED (R257). -/
def State.enginePaused (s : State) : State :=
  if s.pause then s else { s with eng := .resume }

/-- The ENGINE's step in RESUME (R258). -/
def State.engineResume (s : State) : State :=
  if s.txq = [] then { s with eng := .rx } else s

/-- `rxbuf_overflow()` (R174). -/
def State.rxbufOverflow (s : State) : State := State.raise { s with rxbuf := [] } .rxbufOverflow

/-- The WIRE_RX step for byte `b` (R171). -/
def State.wireRxStep (s : State) (b : Byte) : State :=
  if s.dir then s.raise .rxDisabled
  else if s.rxq.length = s.cfg.rxFifoDepth then s.raise .rxqOverrun
  else { s with rxq := s.rxq ++ [b] }

/-- The WIRE_TX step (R259). -/
def State.wireTxStep (s : State) : State :=
  match s.txq with
  | [] => s
  | b :: q => { s with txq := q, txlog := s.txlog ++ [b] }

/-- The CLOCK step (R42). -/
def State.clockStep (s : State) : State := { s with nowMs := s.nowMs + 1#32 }

/-- The reset step (R350): every piece of VBFE's state takes its reset value; the parameters, the clock and the bytes
already on the bus stay (R351), and so do the model's own fields. -/
def State.rstStep (s : State) : State :=
  { State.resetWith s.cfg s.nowMs with
    txlog := s.txlog
    rdata := s.rdata
    hostq := s.hostq
    busq := s.busq
    sched := s.sched
    freeCtr := s.freeCtr }

end Sys2Proof.Machine
end

