-- ==== Sys2Proof/Machine/HostCmd.lean ====
section
/-! DEFINITION. The host commands (R281-R289 of 44_host_commands.md). Every one writes RESULT once; MAINTAIN does so in its
second step. -/

namespace Sys2Proof.Machine

/-- NOP (R281). -/
def execNop (s : State) : Host.Outcome State Fault Refusal := .next (s.setResult (resultOf .ok))

/-- ENQUEUE, C = 0 (R282). -/
def execEnqueue (s : State) : Host.Outcome State Fault Refusal := .next (s.enqueueCommand false)

/-- ENQUEUE.C, C = 1 (R282). -/
def execEnqueueC (s : State) : Host.Outcome State Fault Refusal := .next (s.enqueueCommand true)

/-- EXPIRE (R283): RESULT.N counts the entries found timed out. -/
def execExpire (s : State) : Host.Outcome State Fault Refusal :=
  .next (s.expire.2.setResult (resultCount s.expire.1))

/-- HARVEST (R284): RESULT.N counts the entries emitted. -/
def execHarvest (s : State) : Host.Outcome State Fault Refusal :=
  .next (s.harvest.2.setResult (resultCount s.harvest.1))

/-- MAINTAIN, step 1 (R285): expire; RESULT is not yet written. Step 2 is the HOST's next step. -/
def execMaintain (s : State) : Host.Outcome State Fault Refusal := .next { s.expire.2 with maint := true }

/-- POP_RESP (R286). -/
def execPopResp (s : State) : Host.Outcome State Fault Refusal :=
  match s.respq with
  | [] => .next (s.raise .empty)
  | _ :: q => .next { s with respq := q, result := resultOf .ok }

/-- POP_RAW (R287). -/
def execPopRaw (s : State) : Host.Outcome State Fault Refusal :=
  match s.rawq with
  | [] => .next (s.raise .empty)
  | _ :: q => .next { s with rawq := q, result := resultOf .ok }

/-- CLR_COUNTERS (R288). -/
def execClrCounters (s : State) : Host.Outcome State Fault Refusal :=
  .next { s with counters := Counters.zero, result := resultOf .ok }

/-- A reserved opcode (R289): ILLEGAL, whatever the opcode. -/
def execReserved (_op : Byte) (s : State) : Host.Outcome State Fault Refusal := .next (s.raise .illegalCmd)

end Sys2Proof.Machine
end

