-- ==== Sys2Proof/Machine/Payload.lean ====
section
/-! DEFINITION. The payload commands (R96-R103, R110, R112, R113). VBFE carries them and does not interpret them: each is the
`enq` request of R123 with the row's payload, COMMAND, EXP_CODE, RESP_EXP and ID_IN_PAYLOAD (log 8). -/

namespace Sys2Proof.Machine

/-- SendSoftwareVersionPart0 (R110, R112): code 0x05, expected response 0x82 (R113). -/
def execPaySendSoftwareVersionPart0 (t : Target) (b1 : Byte) (body : List Byte) (s : State) :
    Host.Outcome State Fault Refusal := .next (s.runRequest (codedRequest t noReply b1 0x05#8 body))

/-- SendSoftwareVersionPart1 (R110, R112): code 0x06, expected response 0x82 (R113). -/
def execPaySendSoftwareVersionPart1 (t : Target) (b1 : Byte) (body : List Byte) (s : State) :
    Host.Outcome State Fault Refusal := .next (s.runRequest (codedRequest t noReply b1 0x06#8 body))

/-- GetSetDeviceState (R110, R112): code 0x0E, expected response 0x94 (R113). -/
def execPayGetSetDeviceState (t : Target) (b1 : Byte) (body : List Byte) (s : State) :
    Host.Outcome State Fault Refusal := .next (s.runRequest (codedRequest t noReply b1 0x0E#8 body))

/-- ReadRAMVar (R100): code 0x30, 1 to 6 indices, expected response 0x85 (R113). -/
def execPayReadRamVar (t : Target) (b1 : Byte) (indices : List Byte) (s : State) :
    Host.Outcome State Fault Refusal := .next (s.runRequest (codedRequest t noReply b1 0x30#8 indices))

/-- ReadSetting (R101): code 0x31, expected response 0x86 (R113). -/
def execPayReadSetting (t : Target) (b1 lo hi : Byte) (s : State) :
    Host.Outcome State Fault Refusal := .next (s.runRequest (codedRequest t noReply b1 0x31#8 [lo, hi]))

/-- WriteRAMVar (R99, R112): code 0x32; the response code is not given. -/
def execPayWriteRamVar (t : Target) (a : Reply) (b1 : Byte) (body : List Byte) (s : State) :
    Host.Outcome State Fault Refusal := .next (s.runRequest (codedRequest t a b1 0x32#8 body))

/-- WriteSetting (R112): code 0x33; neither body nor response code is given. -/
def execPayWriteSetting (t : Target) (a : Reply) (b1 : Byte) (body : List Byte) (s : State) :
    Host.Outcome State Fault Refusal := .next (s.runRequest (codedRequest t a b1 0x33#8 body))

/-- WriteData (R112): code 0x34; neither body nor response code is given. -/
def execPayWriteData (t : Target) (a : Reply) (b1 : Byte) (body : List Byte) (s : State) :
    Host.Outcome State Fault Refusal := .next (s.runRequest (codedRequest t a b1 0x34#8 body))

/-- GetSettingInfo (R102): code 0x35, expected response 0x89 (R113). -/
def execPayGetSettingInfo (t : Target) (b1 lo hi : Byte) (s : State) :
    Host.Outcome State Fault Refusal := .next (s.runRequest (codedRequest t noReply b1 0x35#8 [lo, hi]))

/-- GetRAMVarInfo (R102): code 0x36, expected response 0x8E (R113). -/
def execPayGetRamVarInfo (t : Target) (b1 lo hi : Byte) (s : State) :
    Host.Outcome State Fault Refusal := .next (s.runRequest (codedRequest t noReply b1 0x36#8 [lo, hi]))

/-- WriteViaID (R98): code 0x37, body flags, address, lo, hi, expected response 0x87 (R113). -/
def execPayWriteViaId (t : Target) (b1 flags address lo hi : Byte) (s : State) :
    Host.Outcome State Fault Refusal :=
  .next (s.runRequest (codedRequest t noReply b1 0x37#8 [flags, address, lo, hi]))

/-- ReadSnapShot (R112): code 0x38; neither body nor response code is given. -/
def execPayReadSnapShot (t : Target) (a : Reply) (b1 : Byte) (body : List Byte) (s : State) :
    Host.Outcome State Fault Refusal := .next (s.runRequest (codedRequest t a b1 0x38#8 body))

/-- SetSwitchState (R103): the short form, no id in the payload, no response expected. -/
def execPaySetSwitchState (t : Target) (st : SwitchState) (s : State) :
    Host.Outcome State Fault Refusal := .next (s.runRequest (switchRequest t st))

end Sys2Proof.Machine
end

