-- ==== Sys2Proof/Machine/Receive.lean ====
section
/-! DEFINITION. The received-frame kinds (R190-R202 of 41_receive.md): the common processing of R176 with each kind's own
action. `r` is the completed raw frame. -/

namespace Sys2Proof.Machine

/-- SYNC (R190): counted, then the arbiter runs with the destuffed byte 3. -/
def execRxSync (r : List Byte) (s : State) : Host.Outcome State Fault Refusal :=
  .next (((s.finishFrame .sync r false).bump .sync).arbitrate ((destuff r).getD 3 0#8))

/-- SYNC_OTHER (R191). -/
def execRxSyncOther (r : List Byte) (s : State) : Host.Outcome State Fault Refusal :=
  .next (s.finishFrame .syncOther r false)

/-- RESPONSE (R192): matched before the record is made. -/
def execRxResponse (r : List Byte) (s : State) : Host.Outcome State Fault Refusal :=
  let m := s.matchResponse (destuff r)
  .next (m.2.finishFrame .response r m.1)

/-- INFO (R193). -/
def execRxInfo (r : List Byte) (s : State) : Host.Outcome State Fault Refusal :=
  .next (s.finishFrame .info r false)

/-- LED (R194). -/
def execRxLed (r : List Byte) (s : State) : Host.Outcome State Fault Refusal :=
  .next (s.finishFrame .led r false)

/-- BATTERY (R195). -/
def execRxBattery (r : List Byte) (s : State) : Host.Outcome State Fault Refusal :=
  .next (s.finishFrame .battery r false)

/-- CHARGER (R196). -/
def execRxCharger (r : List Byte) (s : State) : Host.Outcome State Fault Refusal :=
  .next (s.finishFrame .charger r false)

/-- AC_PHASE (R197). -/
def execRxAcPhase (r : List Byte) (s : State) : Host.Outcome State Fault Refusal :=
  .next (s.finishFrame .acPhase r false)

/-- DATA_OTHER (R198). -/
def execRxDataOther (r : List Byte) (s : State) : Host.Outcome State Fault Refusal :=
  .next (s.finishFrame .dataOther r false)

/-- BAD_START (R199). -/
def execRxBadStart (r : List Byte) (s : State) : Host.Outcome State Fault Refusal :=
  .next ((s.finishFrame .badStart r false).raise .badStart)

/-- BAD_TYPE (R200). -/
def execRxBadType (r : List Byte) (s : State) : Host.Outcome State Fault Refusal :=
  .next ((s.finishFrame .badType r false).raise .badType)

/-- SHORT (R201). -/
def execRxShort (r : List Byte) (s : State) : Host.Outcome State Fault Refusal :=
  .next ((s.finishFrame .short r false).raise .short)

/-- CHK_DISCARD (R202): nothing beyond the CHECKSUM_FAIL of R179. -/
def execRxChkDiscard (r : List Byte) (s : State) : Host.Outcome State Fault Refusal :=
  .next (s.finishFrame .chkDiscard r false)

end Sys2Proof.Machine
end

