-- ==== Sys2Proof/Machine/Dispatch.lean ====
section
/-! DEFINITION. The meaning of every instruction: one arm per row of spec/opcode_table.json, in the table's order. -/

namespace Sys2Proof.Machine

def exec (i : Instr) (s : State) : Host.Outcome State Fault Refusal :=
  match i with
  | .nop => Sys2Proof.Machine.execNop s
  | .enqueue => Sys2Proof.Machine.execEnqueue s
  | .enqueueC => Sys2Proof.Machine.execEnqueueC s
  | .expire => Sys2Proof.Machine.execExpire s
  | .harvest => Sys2Proof.Machine.execHarvest s
  | .maintain => Sys2Proof.Machine.execMaintain s
  | .popResp => Sys2Proof.Machine.execPopResp s
  | .popRaw => Sys2Proof.Machine.execPopRaw s
  | .clrCounters => Sys2Proof.Machine.execClrCounters s
  | .reserved op => Sys2Proof.Machine.execReserved op s
  | .rxSync r => Sys2Proof.Machine.execRxSync r s
  | .rxSyncOther r => Sys2Proof.Machine.execRxSyncOther r s
  | .rxResponse r => Sys2Proof.Machine.execRxResponse r s
  | .rxInfo r => Sys2Proof.Machine.execRxInfo r s
  | .rxLed r => Sys2Proof.Machine.execRxLed r s
  | .rxBattery r => Sys2Proof.Machine.execRxBattery r s
  | .rxCharger r => Sys2Proof.Machine.execRxCharger r s
  | .rxAcPhase r => Sys2Proof.Machine.execRxAcPhase r s
  | .rxDataOther r => Sys2Proof.Machine.execRxDataOther r s
  | .rxBadStart r => Sys2Proof.Machine.execRxBadStart r s
  | .rxBadType r => Sys2Proof.Machine.execRxBadType r s
  | .rxShort r => Sys2Proof.Machine.execRxShort r s
  | .rxChkDiscard r => Sys2Proof.Machine.execRxChkDiscard r s
  | .paySendSoftwareVersionPart0 t b1 body => Sys2Proof.Machine.execPaySendSoftwareVersionPart0 t b1 body s
  | .paySendSoftwareVersionPart1 t b1 body => Sys2Proof.Machine.execPaySendSoftwareVersionPart1 t b1 body s
  | .payGetSetDeviceState t b1 body => Sys2Proof.Machine.execPayGetSetDeviceState t b1 body s
  | .payReadRamVar t b1 indices => Sys2Proof.Machine.execPayReadRamVar t b1 indices s
  | .payReadSetting t b1 lo hi => Sys2Proof.Machine.execPayReadSetting t b1 lo hi s
  | .payWriteRamVar t a b1 body => Sys2Proof.Machine.execPayWriteRamVar t a b1 body s
  | .payWriteSetting t a b1 body => Sys2Proof.Machine.execPayWriteSetting t a b1 body s
  | .payWriteData t a b1 body => Sys2Proof.Machine.execPayWriteData t a b1 body s
  | .payGetSettingInfo t b1 lo hi => Sys2Proof.Machine.execPayGetSettingInfo t b1 lo hi s
  | .payGetRamVarInfo t b1 lo hi => Sys2Proof.Machine.execPayGetRamVarInfo t b1 lo hi s
  | .payWriteViaId t b1 flags address lo hi => Sys2Proof.Machine.execPayWriteViaId t b1 flags address lo hi s
  | .payReadSnapShot t a b1 body => Sys2Proof.Machine.execPayReadSnapShot t a b1 body s
  | .paySetSwitchState t st => Sys2Proof.Machine.execPaySetSwitchState t st s

end Sys2Proof.Machine
end

