-- ==== Sys2Proof/Machine/Agents.lean ====
section
/-! DEFINITION. The agents' steps (00_scope.md R8): where a step fetches an instruction, decodes it and runs it. An agent that
moves without an enabled step changes nothing (U18-U20). -/

namespace Sys2Proof.Machine

/-- `intake(b)` (R173): a terminator completes the frame, which is decoded and run in the same step (R175, R176); a full
buffer without one overflows (R174). -/
def State.intake (s : State) (b : Byte) : Host.Outcome State Fault Refusal :=
  let buf := s.rxbuf ++ [b]
  if b = endOfFrame then exec (decodeFrame s.chkEnforce buf) { s with rxbuf := buf }
  else if buf.length = s.cfg.maxBufferSize then .next (State.rxbufOverflow { s with rxbuf := buf })
  else .next { s with rxbuf := buf }

/-- The ENGINE's step in RX (R172): the pause check comes first. -/
def State.engineRx (s : State) : Host.Outcome State Fault Refusal :=
  if s.pause then .next { s with eng := .paused }
  else
    match s.rxq with
    | [] => .next s
    | b :: q => State.intake { s with rxq := q } b

/-- The ENGINE's step (R22). -/
def State.engineStep (s : State) : Host.Outcome State Fault Refusal :=
  match s.eng with
  | .rx => s.engineRx
  | .tx => s.engineTx
  | .flush => .next s.engineFlush
  | .paused => .next s.enginePaused
  | .resume => .next s.engineResume

/-- One access of the HOST (R61, R280): a write to CMD runs the command it encodes; a request that is a payload command
of the table runs as that command, and any other request is carried the same way (R112). -/
def State.hostAccess (s : State) : HostOp → Host.Outcome State Fault Refusal
  | .read addr => .next (s.hostRead addr)
  | .write addr w =>
    if inBlock addr ∧ regAt addr = .cmd then exec (decodeCmd w) s
    else .next (s.hostWrite addr w)
  | .request q =>
    match decodeRequest q with
    | some i => exec i s
    | none => .next (s.runRequest q)

/-- The HOST's step: the second step of a MAINTAIN it has begun (R285), else its next access. -/
def State.hostStep (s : State) : Host.Outcome State Fault Refusal :=
  if s.maint then .next s.maintainFinish
  else
    match s.hostq with
    | [] => .next s
    | op :: q => State.hostAccess { s with hostq := q } op

/-- The ENGINE has an enabled step (R172, R254-R258). -/
def State.engineEnabled (s : State) : Bool :=
  match s.eng with
  | .rx => s.pause || !s.rxq.isEmpty
  | .tx => decide (s.txq.length < s.cfg.txFifoDepth)
  | .flush => s.txq.isEmpty
  | .paused => !s.pause
  | .resume => s.txq.isEmpty

/-- The agent that moves when the schedule is empty: the ENGINE when it is enabled, else WIRE_TX, as `wire_rx` settles
them (R122), then the HOST, then the next byte of the bus, then the CLOCK. No rule depends on the choice (R325, log 1). -/
def State.defaultAgent (s : State) : Agent :=
  if s.engineEnabled then .engine
  else if !s.txq.isEmpty then .wireTx
  else if s.maint || !s.hostq.isEmpty then .host
  else if !s.busq.isEmpty then .wireRx
  else .clock

/-- One atomic step of an agent (R8). -/
def State.runAgent (s : State) : Agent → Host.Outcome State Fault Refusal
  | .engine => s.engineStep
  | .host => s.hostStep
  | .wireRx =>
    match s.busq with
    | [] => .next s
    | b :: q => .next (State.wireRxStep { s with busq := q } b)
  | .wireTx => .next s.wireTxStep
  | .clock => .next s.clockStep
  | .rst => .next s.rstStep

/-- One step of the machine: the next agent of the schedule, or the default one (log 1). -/
def State.schedStep (s : State) : Host.Outcome State Fault Refusal :=
  match s.sched with
  | a :: rest => State.runAgent { s with sched := rest } a
  | [] => s.runAgent s.defaultAgent

/-- `s` with a parcel where the next step fetches: a command word in the HOST's next access, a request there, or a frame
whose terminator is the next byte of `rxq`; and the agent that fetches it next in the schedule. -/
def State.withParcel (s : State) : Parcel → State
  | .cmd w => { s with hostq := .write cmdAddr w :: s.hostq, maint := false, sched := .host :: s.sched }
  | .request q => { s with hostq := .request q :: s.hostq, maint := false, sched := .host :: s.sched }
  | .frame r =>
    { s with
      eng := .rx
      ctrl := s.ctrl &&& 0xFFFFFFFE#32
      rxbuf := r.dropLast
      rxq := endOfFrame :: s.rxq
      sched := .engine :: s.sched }

end Sys2Proof.Machine
end

