-- ==== Sys2Proof/Machine/Step.lean ====
section
/-! DEFINITION. One step of the machine, and how the host places an instruction. -/

namespace Sys2Proof.Machine

/-- One atomic step of one agent (R8, R70). -/
def step (s : State) : Host.Outcome State Fault Refusal := s.schedStep

/-- `s` with a table row's instruction where the next step fetches (log 11). -/
def State.withFetchWord (s : State) (nbits w : Nat) : State := s.withParcel (tableParcel nbits w)

end Sys2Proof.Machine
end

