-- ==== Sys2Proof/Safety.lean ====
section
/-! DEFINITION. What a good state is: the invariants the spec states, each as a predicate on State, and the words the
statements use (an open transmission, the least index that satisfies a test). -/

namespace Sys2Proof.Machine

/-- R225 and R33: the ids of the occupied slots are pairwise distinct and in 0x80..0xFF, and so is `id_ctr`. -/
structure IdsInv (s : State) : Prop where
  distinct : (s.slots.map Entry.id).Nodup
  inRange : ∀ e ∈ s.slots, 0x80#8 ≤ e.id
  ctrInRange : 0x80#8 ≤ s.idCtr

/-- R230, items 1 to 4, for one entry. -/
structure EntryInv (c : Config) (e : Entry) : Prop where
  answeredIsSent : e.resp ≠ [] → e.isSent = true
  respLength : e.resp = [] ∨ (8 ≤ e.resp.length ∧ e.resp.length ≤ c.maxBufferSize)
  noReplyUnsent : e.respExp = false → e.isSent = false
  resendBound : e.resend.toNat ≤ c.maxResend
  payloadLength : 1 ≤ e.payload.length ∧ e.payload.length ≤ 32

/-- R230 for the whole registry, with the bounds of the assembly buffer it rests on (R173, R175). -/
structure RegistryInv (s : State) : Prop where
  cfgValid : s.cfg.Valid
  entries : ∀ e ∈ s.slots, EntryInv s.cfg e
  rxbufShort : s.rxbuf.length < s.cfg.maxBufferSize
  rxbufOpen : endOfFrame ∉ s.rxbuf

/-- What the elements of the output FIFOs are (R124, R175, R220, R230 item 2): a response of 8 to MAX_BUFFER_SIZE bytes, and a
completed frame of at most MAX_BUFFER_SIZE bytes that ends in the terminator and has no other. -/
structure FifoElementsInv (s : State) : Prop where
  responses : ∀ e ∈ s.respq, 8 ≤ e.resp.length ∧ e.resp.length ≤ s.cfg.maxBufferSize
  records : ∀ f ∈ s.rawq, f.bytes.length ≤ s.cfg.maxBufferSize ∧ f.bytes.getLast? = some endOfFrame ∧
    endOfFrame ∉ f.bytes.dropLast

/-- The capacities of the FIFOs and the registry (R24, R25, R30, R34, R35, R230 item 5). -/
structure CapacityInv (s : State) : Prop where
  rxq : s.rxq.length ≤ s.cfg.rxFifoDepth
  txq : s.txq.length ≤ s.cfg.txFifoDepth
  slots : s.slots.length ≤ s.cfg.fifoSize
  respq : s.respq.length ≤ s.cfg.respFifoDepth
  rawq : s.rawq.length ≤ s.cfg.rawFifoDepth

/-- The ENGINE is in TX or FLUSH. -/
def State.sending (s : State) : Prop := s.eng = .tx ∨ s.eng = .flush

/-- R27, R258, R259 and R261: DIR is 1 exactly in TX and FLUSH, `txq` holds bytes only then, and `tx_idx` is below
`tx_len` in TX and equal to it in FLUSH (R254). -/
structure TurnaroundInv (s : State) : Prop where
  dirIffSending : s.dir = true ↔ s.sending
  quietWhenReceiving : ¬ s.sending → s.txq = []
  txIdxInFrame : s.eng = .tx → s.txIdx < s.txbuf.length
  flushAtEnd : s.eng = .flush → s.txIdx = s.txbuf.length

/-- R36, R37 and R65: the reserved bits of the stored host registers are 0. -/
structure HostRegInv (s : State) : Prop where
  ctrl : s.ctrl &&& 0xFFFFFFFC#32 = 0#32
  enqDesc0 : s.enqDesc0 &&& 0x00FC0000#32 = 0#32
  enqDesc1 : s.enqDesc1 &&& 0xFFFF0000#32 = 0#32

/-- The bytes of the current frame that are on the bus, in `txq`, or still to be handed over, after everything sent
before (R255). -/
def State.outbound (s : State) : List Byte := s.txlog ++ s.txq ++ s.txbuf.drop s.txIdx

/-- `i` is the least index of `l` whose element satisfies `p` (R250, R215). -/
def LeastIndex (l : List Entry) (p : Entry → Prop) (i : Nat) (e : Entry) : Prop :=
  l[i]? = some e ∧ p e ∧ ∀ j e', j < i → l[j]? = some e' → ¬ p e'

/-- The legal lengths of an ENQUEUE (R214): 1 to 32, and at least 2 when ID_IN_PAYLOAD is 1. -/
def LegalLength (s : State) : Prop :=
  1 ≤ s.descLen ∧ s.descLen ≤ 32 ∧ (s.descIdInPayload = true → 2 ≤ s.descLen)

/-- `id` is the id `allocate_id` gives out (R212): the first of the 127 candidates from `id_ctr` that no slot holds. -/
def FreshId (s : State) (id : Byte) : Prop :=
  ∃ k, k < 127 ∧ id = 0x80#8 ||| ((s.idCtr + BitVec.ofNat 8 k) &&& 0x7F#8) ∧ (∀ e ∈ s.slots, e.id ≠ id) ∧
    ∀ j, j < k → ∃ e ∈ s.slots, e.id = 0x80#8 ||| ((s.idCtr + BitVec.ofNat 8 j) &&& 0x7F#8)

/-- An entry has the staged (command, address), the coalescing key (R214). -/
def SameKey (s : State) (e : Entry) : Prop := e.command = s.descCommand ∧ e.address = s.descAddress

/-- Byte `i` of ENQ_PAYLOAD: word i div 4, bits 8(i mod 4)+7 to 8(i mod 4) (R36, R62). -/
def State.stagedByte (s : State) (i : Nat) : Byte :=
  (s.enqPayload.toList.getD (i / 4) 0#32).extractLsb' (8 * (i % 4)) 8

/-- `e` is the entry an ENQUEUE with id `newId` makes of the staging registers (R214, R216, R119). -/
structure StagedEntry (s : State) (newId : Byte) (e : Entry) : Prop where
  id : e.id = newId
  command : e.command = s.descCommand
  address : e.address = s.descAddress
  expCode : e.expCode = s.descExpCode
  respExp : e.respExp = s.descRespExp
  payloadLength : e.payload.length = s.descLen
  payloadByte : ∀ i, i < s.descLen →
    e.payload[i]? = some (if s.descIdInPayload = true ∧ i = 1 then newId else s.stagedByte i)
  unsent : e.isSent = false
  sentTime : e.sentTime = s.nowMs
  resend : e.resend = 0#8
  resp : e.resp = []

/-- ENQUEUE.C for `true`, ENQUEUE for `false`. -/
def enqueueInstr (c : Bool) : Instr := if c then .enqueueC else .enqueue

/-- What is left of an entry after an expiry scan (R219, R221): unchanged when it is not timed out, retried while its
resends are below MAX_RESEND, and dropped otherwise. -/
def State.afterExpiry (s : State) (e : Entry) : Option Entry :=
  if s.timedOut e then
    if s.cfg.maxResend ≤ e.resend.toNat then none
    else some { e with resend := e.resend + 1#8, isSent := false, sentTime := s.nowMs, resp := [] }
  else some e

/-- What is left of an entry after a harvest (R219, R220), when it is not one with its expected code: unchanged without
a response, retried while its resends are below MAX_RESEND, and dropped otherwise. -/
def State.afterMismatch (s : State) (e : Entry) : Option Entry :=
  if e.resp = [] then some e
  else if s.cfg.maxResend ≤ e.resend.toNat then none
  else some { e with resend := e.resend + 1#8, isSent := false, sentTime := s.nowMs, resp := [] }

/-- The stored response has the expected code in byte 6 (R220). -/
def HasAnswer (e : Entry) : Bool := e.resp[6]? == some e.expCode

/-- What a scan has still to examine after it removed the entry it was at (R222, R223): the last one comes first. -/
def lastToFront (l : List Entry) : List Entry :=
  match l.getLast? with
  | some e => e :: l.dropLast
  | none => []

/-- A scan of the registry in index order, examining an index again after a removal (R223). `f` says what becomes of each
entry; from the entries to examine the scan leaves exactly the second list, in this order. -/
inductive ScanLeaves (f : Entry → Option Entry) : List Entry → List Entry → Prop where
  | done : ScanLeaves f [] []
  | keep {e e' : Entry} {l left : List Entry} (h : f e = some e') (rest : ScanLeaves f l left) :
    ScanLeaves f (e :: l) (e' :: left)
  | remove {e : Entry} {l left : List Entry} (h : f e = none) (rest : ScanLeaves f (lastToFront l) left) :
    ScanLeaves f (e :: l) left

/-- A harvest in the same order (R220, R223), with room for `n` more responses: from the entries to examine it leaves the
second list and emits the third, both in this order. An answered entry is emitted while there is room and stalls when there
is none; every other entry is kept, retried or dropped. -/
inductive HarvestLeaves (s : State) : Nat → List Entry → List Entry → List Entry → Prop where
  | done {n : Nat} : HarvestLeaves s n [] [] []
  | emit {n : Nat} {e : Entry} {l left out : List Entry} (h : HasAnswer e = true)
    (rest : HarvestLeaves s n (lastToFront l) left out) : HarvestLeaves s (n + 1) (e :: l) left (e :: out)
  | stall {e : Entry} {l left out : List Entry} (h : HasAnswer e = true)
    (rest : HarvestLeaves s 0 l left out) : HarvestLeaves s 0 (e :: l) (e :: left) out
  | keep {n : Nat} {e e' : Entry} {l left out : List Entry} (h : HasAnswer e = false) (hk : s.afterMismatch e = some e')
    (rest : HarvestLeaves s n l left out) : HarvestLeaves s n (e :: l) (e' :: left) out
  | drop {n : Nat} {e : Entry} {l left out : List Entry} (h : HasAnswer e = false) (hd : s.afterMismatch e = none)
    (rest : HarvestLeaves s n (lastToFront l) left out) : HarvestLeaves s n (e :: l) left out

/-- How many elements of a list satisfy a test, as a 32-bit count. -/
def count32 (p : Entry → Bool) (l : List Entry) : Word := BitVec.ofNat 32 (l.countP p)

/-- Each counter of `t` is that of `s` plus the number of times it stands in `evs`, modulo 2^32 (R40). -/
def CountersGain (s t : State) (evs : List Counter) : Prop :=
  ∀ c, t.counters.get c = s.counters.get c + BitVec.ofNat 32 (evs.count c)

/-- `rawq` after the record of a frame: one element more, or unchanged when it was full (R181). -/
def Recorded (s t : State) (f : RawRec) : Prop :=
  t.rawq = if s.rawq.length = s.cfg.rawFifoDepth then s.rawq else s.rawq ++ [f]

/-- The counters every completed frame adds to (R176, R181): CNT_FRAME, and CNT_RAW_DROP when `rawq` is full. -/
def frameCounters (s : State) : List Counter :=
  .frame :: if s.rawq.length = s.cfg.rawFifoDepth then [.rawDrop] else []

/-- CNT_CHK_FAIL, for a frame whose checksum fails (R179). -/
def checksumCounters (r : List Byte) : List Counter := if validate r then [] else [.chkFail]

/-- An entry takes the response `d` (R218): its id is `d[5]`, it is sent, and it holds no response. -/
def Takes (d : List Byte) (e : Entry) : Prop := d[5]? = some e.id ∧ e.isSent = true ∧ e.resp = []

/-- `l'` is `l` with the entry at `i` removed and the last one in its place (R222). -/
def SwapRemoved (l : List Entry) (i : Nat) (l' : List Entry) : Prop :=
  l'.length + 1 = l.length ∧ ∀ j, j < l'.length → l'[j]? = if j = i then l.getLast? else l[j]?

/-- The kinds VBFE only records, whose checksum is judged (R191, R193-R198). -/
def forwardedKinds (r : List Byte) : List (Instr × Kind) :=
  [(.rxSyncOther r, .syncOther), (.rxInfo r, .info), (.rxLed r, .led), (.rxBattery r, .battery),
    (.rxCharger r, .charger), (.rxAcPhase r, .acPhase), (.rxDataOther r, .dataOther)]

/-- The discarded kinds, each with its tag `chk_ok` and the counters it adds (R199-R202). -/
def discardedKinds (r : List Byte) : List (Instr × Kind × Bool × List Counter) :=
  [(.rxBadStart r, .badStart, false, [.badStart]),
    (.rxBadType r, .badType, false, [.badType]),
    (.rxShort r, .short, decide (4 ≤ r.length) && validate r,
      .short :: if r.length < 4 then [] else checksumCounters r),
    (.rxChkDiscard r, .chkDiscard, false, [.chkFail])]

/-- `st` is `s` after the staging writes of the request `q` (R118, R119, R123): ENQ_DESC0 and ENQ_DESC1 packed from its
fields, and the payload words the request reaches, with bytes past its end 0. -/
structure Staged (s : State) (q : Request) (st : State) : Prop where
  desc0 : st.enqDesc0 =
    (BitVec.ofNat 32 q.payload.length <<< 24) ||| ((BitVec.ofBool q.idInPayload).setWidth 32 <<< 17) |||
      ((BitVec.ofBool q.respExp).setWidth 32 <<< 16) ||| (q.expCode.setWidth 32 <<< 8) ||| q.command.setWidth 32
  desc1 : st.enqDesc1 = q.address.setWidth 32
  bytes : ∀ i, i < 32 →
    st.stagedByte i =
      if i / 4 < (q.payload.length + 3) / 4 then q.payload.getD i 0#8 else s.stagedByte i
  others : st = { s with enqDesc0 := st.enqDesc0, enqDesc1 := st.enqDesc1, enqPayload := st.enqPayload }

/-- `e` is the entry of the request `q` with id `newId` (R214, R216). -/
structure RequestEntry (s : State) (q : Request) (newId : Byte) (e : Entry) : Prop where
  id : e.id = newId
  command : e.command = q.command
  address : e.address = q.address
  expCode : e.expCode = q.expCode
  respExp : e.respExp = q.respExp
  payload : e.payload = if q.idInPayload then q.payload.set 1 newId else q.payload
  unsent : e.isSent = false
  sentTime : e.sentTime = s.nowMs
  resend : e.resend = 0#8
  resp : e.resp = []

/-- A request of the template of R96, with the code in payload byte 2 and in COMMAND (R112). -/
def templateRow (t : Target) (code expCode : Byte) (respExp : Bool) (b1 : Byte) (body : List Byte) : Request where
  command := code
  address := t.address
  expCode := expCode
  respExp := respExp
  idInPayload := true
  coalesce := t.coalesce
  payload := 0x00#8 :: b1 :: code :: body

/-- The request of each payload command, row by row: the codes of R112, the ok codes of R113 and the bodies of R98 to R103.
That a row with a code of R113 expects a response, and the COMMAND and EXP_CODE of the short form, are the model's (log 8);
where R113 gives no code both are the host's. -/
def payloadRow : Instr → Option Request
  | .paySendSoftwareVersionPart0 t b1 body => some (templateRow t 0x05#8 0x82#8 true b1 body)
  | .paySendSoftwareVersionPart1 t b1 body => some (templateRow t 0x06#8 0x82#8 true b1 body)
  | .payGetSetDeviceState t b1 body => some (templateRow t 0x0E#8 0x94#8 true b1 body)
  | .payReadRamVar t b1 indices => some (templateRow t 0x30#8 0x85#8 true b1 indices)
  | .payReadSetting t b1 lo hi => some (templateRow t 0x31#8 0x86#8 true b1 [lo, hi])
  | .payWriteRamVar t a b1 body => some (templateRow t 0x32#8 a.expCode a.respExp b1 body)
  | .payWriteSetting t a b1 body => some (templateRow t 0x33#8 a.expCode a.respExp b1 body)
  | .payWriteData t a b1 body => some (templateRow t 0x34#8 a.expCode a.respExp b1 body)
  | .payGetSettingInfo t b1 lo hi => some (templateRow t 0x35#8 0x89#8 true b1 [lo, hi])
  | .payGetRamVarInfo t b1 lo hi => some (templateRow t 0x36#8 0x8E#8 true b1 [lo, hi])
  | .payWriteViaId t b1 flags address lo hi => some (templateRow t 0x37#8 0x87#8 true b1 [flags, address, lo, hi])
  | .payReadSnapShot t a b1 body => some (templateRow t 0x38#8 a.expCode a.respExp b1 body)
  | .paySetSwitchState t st => some
      { command := 0x3F#8
        address := t.address
        expCode := 0x00#8
        respExp := false
        idInPayload := false
        coalesce := t.coalesce
        payload :=
          [0x3F#8,
            (match st with
              | .sleep => 0x04#8
              | .chargerOnly => 0x05#8
              | .inverterOnly => 0x06#8
              | .chargerInverter => 0x07#8),
            0x00#8, 0x00#8, 0x00#8] }
  | _ => none

/-- The numbers of the ENGINE's states (R21). -/
def engNumber : Eng → Word
  | .rx => 0#32
  | .tx => 1#32
  | .flush => 2#32
  | .paused => 3#32
  | .resume => 4#32

/-- The kind codes of R104. -/
def kindNumber : Kind → Word
  | .sync => 0x01#32
  | .syncOther => 0x02#32
  | .response => 0x03#32
  | .info => 0x04#32
  | .led => 0x05#32
  | .battery => 0x06#32
  | .charger => 0x07#32
  | .acPhase => 0x08#32
  | .dataOther => 0x09#32
  | .badStart => 0x81#32
  | .badType => 0x82#32
  | .short => 0x83#32
  | .chkDiscard => 0x84#32

/-- The transitions of `eng` that R22 lists; a state also keeps its value. -/
def engMoves : List (Eng × Eng) :=
  [(.rx, .paused), (.rx, .rx), (.rx, .tx), (.tx, .flush), (.flush, .rx), (.paused, .resume), (.resume, .rx),
    (.tx, .tx), (.flush, .flush), (.paused, .paused), (.resume, .resume)]

/-- A step that stops neither with a fault nor with a refusal. -/
def State.CanStep (s : State) : Prop := ∃ t, step s = .next t

end Sys2Proof.Machine
end

