-- ==== Sys2Proof/Certificates/Slice0/Obligations.lean ====
section
/-! DEFINITION. The statements for the provers. Each docstring names the rules of spec/ it rests on. -/

open Sys2Proof Sys2Proof.Machine

/-! Host commands. -/

/-- R281, R288, R289: NOP clears RESULT, a reserved opcode makes it 5, CLR_COUNTERS clears the 15 counters and RESULT;
nothing else changes. Says where nop, reserved and clrCounters complete: everywhere. -/
def Obligations.ResultCommandsChangeNothingElse : Prop :=
  ∀ (s : State) (op : Byte),
    exec .nop s = .next { s with result := 0x00000000#32 } ∧
    exec (.reserved op) s = .next { s with result := 0x00000005#32 } ∧
    ∃ t, exec .clrCounters s = .next t ∧ (∀ c, t.counters.get c = 0#32) ∧
      t = { s with counters := t.counters, result := 0x00000000#32 }

/-- R286, R287: a POP of an empty FIFO answers EMPTY (4) and changes nothing else; of a non-empty one it removes the head
and answers 0. Says where popResp and popRaw complete: everywhere. -/
def Obligations.PopTakesTheHead : Prop :=
  ∀ s : State,
    (s.respq = [] → exec .popResp s = .next { s with result := 0x00000004#32 }) ∧
    (∀ e q, s.respq = e :: q → exec .popResp s = .next { s with respq := q, result := 0x00000000#32 }) ∧
    (s.rawq = [] → exec .popRaw s = .next { s with result := 0x00000004#32 }) ∧
    (∀ f q, s.rawq = f :: q → exec .popRaw s = .next { s with rawq := q, result := 0x00000000#32 })

/-- R214, R282, R324: an illegal length is refused first, with RESULT 3 and nothing else changed. -/
def Obligations.EnqueueRefusesBadLength : Prop :=
  ∀ (s : State) (c : Bool), ¬ LegalLength s →
    exec (enqueueInstr c) s = .next { s with result := 0x00000003#32 }

/-- R212, R214: with all 127 candidate ids in use, RESULT is 2 and nothing else changes. -/
def Obligations.EnqueueReportsIdExhausted : Prop :=
  ∀ (s : State) (c : Bool), LegalLength s →
    (∀ k, k < 127 → ∃ e ∈ s.slots, e.id = 0x80#8 ||| ((s.idCtr + BitVec.ofNat 8 k) &&& 0x7F#8)) →
    exec (enqueueInstr c) s = .next { s with result := 0x00000002#32 }

/-- R214, R216, R213, R282: without a coalesce target and with room, the new entry is appended under the fresh id, the
counter moves past it, and RESULT carries the id; nothing else changes. Says where enqueue and enqueueC complete. -/
def Obligations.EnqueueAppendsTheStagedEntry : Prop :=
  ∀ (s : State) (c : Bool) (id : Byte), LegalLength s → FreshId s id → s.slots.length < s.cfg.fifoSize →
    (c = true → ∀ e ∈ s.slots, ¬ SameKey s e) →
    ∃ e, StagedEntry s id e ∧
      exec (enqueueInstr c) s = .next { s with
        idCtr := 0x80#8 ||| ((id + 1#8) &&& 0x7F#8)
        slots := s.slots ++ [e]
        result := id.setWidth 32 <<< 8 }

/-- R214, R215, R213, R282: ENQUEUE.C replaces the whole entry in the least slot with the same (command, address), whether
or not the registry is full. -/
def Obligations.EnqueueCoalescesInPlace : Prop :=
  ∀ (s : State) (id : Byte) (i : Nat) (old : Entry), LegalLength s → FreshId s id →
    LeastIndex s.slots (SameKey s) i old →
    ∃ e, StagedEntry s id e ∧
      exec .enqueueC s = .next { s with
        idCtr := 0x80#8 ||| ((id + 1#8) &&& 0x7F#8)
        slots := s.slots.set i e
        result := 0x00010000#32 ||| (id.setWidth 32 <<< 8) }

/-- R217, R213: with a full registry and no coalesce target, no slot changes and RESULT is 1, but the id is spent. -/
def Obligations.EnqueueReportsFifoFull : Prop :=
  ∀ (s : State) (c : Bool) (id : Byte), LegalLength s → FreshId s id → s.slots.length = s.cfg.fifoSize →
    (c = true → ∀ e ∈ s.slots, ¬ SameKey s e) →
    exec (enqueueInstr c) s = .next { s with
      idCtr := 0x80#8 ||| ((id + 1#8) &&& 0x7F#8)
      result := 0x00000001#32 }

/-- R227: with at most 126 entries, some candidate id is free, and no ENQUEUE answers ID_EXHAUSTED. -/
def Obligations.AllocationSucceedsBelow127Entries : Prop :=
  ∀ (s : State) (c : Bool), s.slots.length ≤ 126 →
    (∃ id, FreshId s id) ∧ ∃ t, exec (enqueueInstr c) s = .next t ∧ t.result ≠ 0x00000002#32

/-- R219, R221, R283: EXPIRE examines every entry once. Up to order (ExpireScansInIndexOrder says the order), the registry keeps
the entries that are not timed out, retries the timed-out ones below MAX_RESEND, and drops the others; the two counters and
RESULT.N count them; nothing else changes. Says where expire completes: everywhere. -/
def Obligations.ExpireRetriesOrDropsEveryTimedOutEntry : Prop :=
  ∀ s : State, ∃ t, exec .expire s = .next t ∧
    t.slots.Perm (s.slots.filterMap s.afterExpiry) ∧
    t.counters = { s.counters with
      retryTimeout := s.counters.retryTimeout +
        count32 (fun e => s.timedOut e && decide (e.resend.toNat < s.cfg.maxResend)) s.slots
      drop := s.counters.drop +
        count32 (fun e => s.timedOut e && decide (s.cfg.maxResend ≤ e.resend.toNat)) s.slots } ∧
    t.result = BitVec.ofNat 32 (min (s.slots.countP s.timedOut) 255) <<< 24 ∧
    t = { s with slots := t.slots, counters := t.counters, result := t.result }

/-- R219, R220, R284: HARVEST emits the answered entries while `respq` has room and leaves the others of them in place
(HarvestScansInIndexOrder says which, and in what order); an entry with a wrong code is retried or dropped; an entry without a response stays. Says where harvest completes:
whenever `respq` is within its capacity. -/
def Obligations.HarvestDeliversAnsweredEntries : Prop :=
  ∀ s : State, s.respq.length ≤ s.cfg.respFifoDepth →
    ∃ t emitted stalled, exec .harvest s = .next t ∧
      (s.slots.filter HasAnswer).Perm (emitted ++ stalled) ∧
      emitted.length = min (s.cfg.respFifoDepth - s.respq.length) (s.slots.countP HasAnswer) ∧
      t.respq = s.respq ++ emitted.map (fun e =>
        { id := e.id, command := e.command, address := e.address, resp := e.resp }) ∧
      t.slots.Perm (stalled ++ (s.slots.filter fun e => !HasAnswer e).filterMap s.afterMismatch) ∧
      t.counters = { s.counters with
        respStall := s.counters.respStall + BitVec.ofNat 32 stalled.length
        retryMismatch := s.counters.retryMismatch +
          count32 (fun e => !e.resp.isEmpty && !HasAnswer e && decide (e.resend.toNat < s.cfg.maxResend)) s.slots
        drop := s.counters.drop +
          count32 (fun e => !e.resp.isEmpty && !HasAnswer e && decide (s.cfg.maxResend ≤ e.resend.toNat)) s.slots } ∧
      t.result = BitVec.ofNat 32 (min emitted.length 255) <<< 24 ∧
      t = { s with slots := t.slots, respq := t.respq, counters := t.counters, result := t.result }

/-- R285: the first step of MAINTAIN is EXPIRE's effect without a RESULT. Says where maintain completes: everywhere. -/
def Obligations.MaintainExpiresFirst : Prop :=
  ∀ s : State, ∃ e, exec .expire s = .next e ∧
    exec .maintain s = .next { e with result := s.result, maint := true }

/-- R285: the HOST's next step after the first step of MAINTAIN is HARVEST's effect, with its RESULT, whatever other agents
did in between and whatever access comes next. -/
def Obligations.MaintainHarvestsSecond : Prop :=
  ∀ (s : State) (rest : List Agent), s.maint = true → s.sched = .host :: rest →
    ∃ h, exec .harvest { s with sched := rest } = .next h ∧ step s = .next { h with maint := false }

/-! Received frames. -/

/-- R191, R193 to R198, R176, R181: the kinds VBFE forwards are counted, judged and recorded, and do nothing else. Says
where rxSyncOther, rxInfo, rxLed, rxBattery, rxCharger, rxAcPhase and rxDataOther complete: on every well-formed frame. -/
def Obligations.ForwardedKindsAreOnlyRecorded : Prop :=
  ∀ (s : State) (enforce : Bool) (r : List Byte) (i : Instr) (k : Kind),
    (i, k) ∈ forwardedKinds r → i.wf enforce = true →
    ∃ t, exec i s = .next t ∧
      Recorded s t { bytes := r, kind := k, chkOk := validate r, matched := false } ∧
      CountersGain s t (frameCounters s ++ checksumCounters r) ∧
      t = { s with rxbuf := [], rawq := t.rawq, counters := t.counters }

/-- R199 to R202, R179, R181: the discarded kinds are counted under their own counter and recorded with their tag, and do
nothing else. Says where rxBadStart, rxBadType, rxShort and rxChkDiscard complete: on every well-formed frame. -/
def Obligations.DiscardedKindsAreCountedAndRecorded : Prop :=
  ∀ (s : State) (enforce : Bool) (r : List Byte) (i : Instr) (k : Kind) (ok : Bool) (evs : List Counter),
    (i, k, ok, evs) ∈ discardedKinds r → i.wf enforce = true →
    ∃ t, exec i s = .next t ∧
      Recorded s t { bytes := r, kind := k, chkOk := ok, matched := false } ∧
      CountersGain s t (frameCounters s ++ evs) ∧
      t = { s with rxbuf := [], rawq := t.rawq, counters := t.counters }

/-- R192, R218: a response is stored whole, destuffed, in the first sent entry with its id and no response, and its record
says matched. Says where rxResponse completes, with the next statement: on every well-formed frame. -/
def Obligations.ResponseIsStoredInItsEntry : Prop :=
  ∀ (s : State) (enforce : Bool) (r : List Byte) (i : Nat) (e : Entry),
    (Instr.rxResponse r).wf enforce = true → LeastIndex s.slots (Takes (destuff r)) i e →
    ∃ t, exec (.rxResponse r) s = .next t ∧
      Recorded s t { bytes := r, kind := .response, chkOk := validate r, matched := true } ∧
      CountersGain s t (frameCounters s ++ checksumCounters r) ∧
      t = { s with
        rxbuf := []
        rawq := t.rawq
        counters := t.counters
        slots := s.slots.set i { e with resp := destuff r } }

/-- R218: a response no entry takes changes no entry, and is counted in CNT_UNMATCHED. -/
def Obligations.UnmatchedResponseChangesNoEntry : Prop :=
  ∀ (s : State) (enforce : Bool) (r : List Byte),
    (Instr.rxResponse r).wf enforce = true → (∀ e ∈ s.slots, ¬ Takes (destuff r) e) →
    ∃ t, exec (.rxResponse r) s = .next t ∧
      Recorded s t { bytes := r, kind := .response, chkOk := validate r, matched := false } ∧
      CountersGain s t (frameCounters s ++ checksumCounters r ++ [.unmatched]) ∧
      t = { s with rxbuf := [], rawq := t.rawq, counters := t.counters }

/-- R262, R190: a SYNC with no unsent entry is counted and recorded, and starts no transmission. -/
def Obligations.SyncWithoutUnsentEntrySendsNothing : Prop :=
  ∀ (s : State) (enforce : Bool) (r : List Byte),
    (Instr.rxSync r).wf enforce = true → (∀ e ∈ s.slots, e.isSent = true) →
    ∃ t, exec (.rxSync r) s = .next t ∧
      Recorded s t { bytes := r, kind := .sync, chkOk := validate r, matched := false } ∧
      CountersGain s t (frameCounters s ++ checksumCounters r ++ [.sync]) ∧
      t = { s with rxbuf := [], rawq := t.rawq, counters := t.counters }

/-- R190, R250 to R253: a SYNC releases the unsent entry of the least slot: its payload is framed with the sync's number
plus one modulo 128, it is marked sent now, or removed when it expects no response, DIR becomes 1 and the ENGINE goes to
TX. Says where rxSync completes, with the statement before: on every well-formed frame. -/
def Obligations.SyncReleasesTheFirstUnsentEntry : Prop :=
  ∀ (s : State) (enforce : Bool) (r : List Byte) (i : Nat) (e : Entry) (fnr : Byte),
    (Instr.rxSync r).wf enforce = true → (destuff r)[3]? = some fnr →
    LeastIndex s.slots (fun e => e.isSent = false) i e →
    ∃ t, exec (.rxSync r) s = .next t ∧
      Recorded s t { bytes := r, kind := .sync, chkOk := validate r, matched := false } ∧
      CountersGain s t (frameCounters s ++ checksumCounters r ++ [.sync, .tx]) ∧
      (e.respExp = true → t.slots = s.slots.set i { e with isSent := true, sentTime := s.nowMs }) ∧
      (e.respExp = false → SwapRemoved s.slots i t.slots) ∧
      t = { s with
        rxbuf := []
        rawq := t.rawq
        counters := t.counters
        txbuf := buildFrame (BitVec.ofNat 8 ((fnr.toNat + 1) % 128)) e.payload
        txIdx := 0
        slots := t.slots
        dir := true
        eng := .tx }

/-! Payload commands. -/

/-- R96 to R103, R112, R113, R123: every payload command is the `enq` request of its row: the staging writes, then ENQUEUE
or ENQUEUE.C. That a payload command is this request is the model's reading (log 8). Says where all 13 payload commands
complete (paySendSoftwareVersionPart0, paySendSoftwareVersionPart1, payGetSetDeviceState, payReadRamVar, payReadSetting,
payWriteRamVar, payWriteSetting, payWriteData, payGetSettingInfo, payGetRamVarInfo, payWriteViaId, payReadSnapShot,
paySetSwitchState): everywhere. -/
def Obligations.PayloadCommandStagesAndEnqueues : Prop :=
  ∀ (s : State) (enforce : Bool) (i : Instr) (q : Request), encode i = .request q → i.wf enforce = true →
    ∃ st t, Staged s q st ∧ exec i s = .next t ∧ exec (enqueueInstr q.coalesce) st = .next t

/-- R96, R98 to R103, R112, R113, R123, R214, R282: the request of every payload command, row by row (`payloadRow`), is what
its encoding carries, and with room and no coalesce target the command appends that request's entry, with the id in payload
byte 1 when ID_IN_PAYLOAD is 1; beyond that entry, `id_ctr`, RESULT and the staging registers nothing changes. That a payload
command is this request, the RESP_EXP of the rows with a code of R113, and the COMMAND and EXP_CODE of the short form are the
model's choice (log 8). -/
def Obligations.PayloadCommandAppendsItsRequest : Prop :=
  ∀ (s : State) (enforce : Bool) (i : Instr) (q : Request), payloadRow i = some q → i.wf enforce = true →
    encode i = .request q ∧
    ∀ id : Byte, FreshId s id → s.slots.length < s.cfg.fifoSize →
      (q.coalesce = true → ∀ e ∈ s.slots, ¬ (e.command = q.command ∧ e.address = q.address)) →
      ∃ t e, exec i s = .next t ∧ RequestEntry s q id e ∧
        t = { s with
          enqDesc0 := t.enqDesc0
          enqDesc1 := t.enqDesc1
          enqPayload := t.enqPayload
          idCtr := 0x80#8 ||| ((id + 1#8) &&& 0x7F#8)
          slots := s.slots ++ [e]
          result := id.setWidth 32 <<< 8 }

/-- R123, R67: a payload command has exactly the effect of its expansion's host accesses, each taken as one HOST step with
no other agent's step between them. That a payload command is this expansion, and runs in one step, is the model's reading
(log 8). -/
def Obligations.PayloadCommandEqualsItsHostAccesses : Prop :=
  ∀ (s : State) (enforce : Bool) (i : Instr) (q : Request), encode i = .request q → i.wf enforce = true →
    s.maint = false →
    ∃ t, exec i s = .next t ∧
      Host.Core.run Sys2Proof.core (requestAccesses q).length
        { s with
          hostq := requestAccesses q ++ s.hostq
          sched := List.replicate (requestAccesses q).length .host ++ s.sched } = .next t

/-! Fetch and decode. -/

/-- R280, R173, R175, R176: a step runs the decoded instruction. (1) The HOST's write to CMD (offsets 0x00C to 0x00F) runs
the command it encodes. (2) The ENGINE's intake of a terminator runs the completed frame's kind. (3) A request runs as the
payload command it is: this is the model's choice (log 8), since R280 makes a HOST step one word access and R123 only expands
a request into accesses (PayloadCommandEqualsItsHostAccesses says that the two agree). The step removes the agent from the schedule and the parcel from where it was fetched. -/
def Obligations.StepRunsTheDecodedInstruction : Prop :=
  ∀ (s : State) (rest : List Agent) (i : Instr),
    (∀ (a w : Word) (q : List HostOp), s.sched = .host :: rest → s.maint = false → s.hostq = .write a w :: q →
      a.toNat / 4 = 3 → decode s.chkEnforce (.cmd w) = .ok i →
      step s = exec i { s with sched := rest, hostq := q }) ∧
    (∀ q : List Byte, s.sched = .engine :: rest → s.eng = .rx → s.pause = false → s.rxq = 0xFF#8 :: q →
      decode s.chkEnforce (.frame (s.rxbuf ++ [0xFF#8])) = .ok i →
      step s = exec i { s with sched := rest, rxq := q, rxbuf := s.rxbuf ++ [0xFF#8] }) ∧
    (∀ (p : Request) (q : List HostOp), s.sched = .host :: rest → s.maint = false → s.hostq = .request p :: q →
      decode s.chkEnforce (.request p) = .ok i →
      step s = exec i { s with sched := rest, hostq := q })

/-- R114, R104, R177, R96 to R103: for every well-formed instruction, decoding its encoding gives it back, for both values
of CTRL.CHK_ENFORCE. -/
def Obligations.DecodeOfEncodeIsIdentity : Prop :=
  ∀ (enforce : Bool) (i : Instr), i.wf enforce = true → decode enforce (encode i) = .ok i

/-- R104, R105: every completed frame has exactly one kind, the conditions of the table and the order of the decoder
agreeing. -/
def Obligations.EveryCompletedFrameHasOneKind : Prop :=
  ∀ (enforce : Bool) (r : List Byte), r.getLast? = some 0xFF#8 →
    ∃ i, (i.wf enforce = true ∧ encode i = .frame r) ∧
      ∀ j : Instr, j.wf enforce = true ∧ encode j = .frame r → j = i

/-- R185: a completed frame is taken as SYNC exactly when the five conditions hold. -/
def Obligations.SyncDetectorConditions : Prop :=
  ∀ (enforce : Bool) (r : List Byte), r.getLast? = some 0xFF#8 →
    (decode enforce (.frame r) = .ok (.rxSync r) ↔
      (r[0]? = some 0x83#8 ∧ r[1]? = some 0x83#8) ∧ (4 ≤ r.length ∧ r[2]? = some 0xFD#8) ∧
      (validate r = true ∨ enforce = false) ∧ (destuff r).length = 10 ∧ (destuff r)[4]? = some 0x55#8)

/-- R114, R115, R116: every CMD word is a command; bits 31:9 never matter, bit 8 matters for opcode 1 only, and the opcodes
0x08 to 0xFF are RESERVED. -/
def Obligations.CommandWordsIgnoreUnusedBits : Prop :=
  ∀ w : Word,
    decodeCmd w = decodeCmd (w &&& 0x000001FF#32) ∧
    (w &&& 0x000000FF#32 ≠ 0x00000001#32 → decodeCmd w = decodeCmd (w &&& 0x000000FF#32)) ∧
    (0x00000008#32 ≤ w &&& 0x000000FF#32 → decodeCmd w = .reserved (w.setWidth 8)) ∧
    ∃ i, decodeCmd w = i ∧ i.wf false = true

/-- Words written out from the spec's encodings (R115, W3, W4, W7 of 95_test_vectors.md) decode to their instructions. A
sanity statement. -/
def Obligations.WrittenOutWordsDecode : Prop :=
  decode false (.cmd 0x00000101#32) = .ok .enqueueC ∧
  decode false (.cmd 0xFFFFFF00#32) = .ok .nop ∧
  decode false (.frame [0x83#8, 0x83#8, 0xFD#8, 0x00#8, 0x55#8, 0x00#8, 0x00#8, 0x00#8, 0xAF#8, 0xFF#8]) =
    .ok (.rxSync [0x83#8, 0x83#8, 0xFD#8, 0x00#8, 0x55#8, 0x00#8, 0x00#8, 0x00#8, 0xAF#8, 0xFF#8]) ∧
  decode false (.request
    { command := 0x37#8, address := 0x0083#16, expCode := 0x87#8, respExp := true, idInPayload := true, coalesce := true,
      payload := [0x00#8, 0x00#8, 0x37#8, 0x02#8, 0x83#8, 0x24#8, 0xFA#8] }) =
    .ok (.payWriteViaId { address := 0x0083#16, coalesce := true } 0x00#8 0x02#8 0x83#8 0x24#8 0xFA#8)

/-! The codec. -/

/-- R148: on a terminated frame, destuffing undoes stuffing for every payload. -/
def Obligations.DestuffUndoesStuff : Prop :=
  ∀ p : List Byte, destuff (stuff p ++ [0xFF#8]) = p ++ [0xFF#8]

/-- R149: every built frame sums to 0x01 from byte 2 to its last checksum byte, and so validates. -/
def Obligations.BuiltFramesValidate : Prop :=
  ∀ (nr : Byte) (p : List Byte),
    sum8 ((buildFrame nr p).drop 2).dropLast = 0x01#8 ∧ validate (buildFrame nr p) = true

/-- R150: the length of a built frame, at least 7 and at most 71 for a payload of 1 to 32 bytes. -/
def Obligations.BuiltFrameLength : Prop :=
  ∀ (nr : Byte) (p : List Byte), 1 ≤ p.length → p.length ≤ 32 →
    (∃ c : Byte, (buildFrame nr p).length =
      4 + p.length + p.countP (fun b => decide (0xFA#8 ≤ b)) + (chkEncode c).length + 1 ∧
      c = 0x01#8 - sum8 ([0xFE#8, nr &&& 0x7F#8] ++ stuff p)) ∧
    7 ≤ (buildFrame nr p).length ∧ (buildFrame nr p).length ≤ 71

/-- R151: in a built frame 0xFF stands only at the last index and 0xFE only at index 2; a stuffed payload holds no byte above
0xFA, and 0xFA only as the first byte of an escape pair; a checksum encoding holds neither 0xFE nor 0xFF. -/
def Obligations.BuiltFramesAreTransparent : Prop :=
  ∀ (nr : Byte) (p : List Byte) (j : Nat),
    ((buildFrame nr p)[j]? = some 0xFF#8 ↔ j + 1 = (buildFrame nr p).length) ∧
    ((buildFrame nr p)[j]? = some 0xFE#8 ↔ j = 2) ∧
    (∀ b, (stuff p)[j]? = some b → b ≤ 0xFA#8) ∧
    ((stuff p)[j]? = some 0xFA#8 → ∃ f, (stuff p)[j + 1]? = some f ∧ 0x7A#8 ≤ f ∧ f ≤ 0x7F#8) ∧
    ∀ c : Byte, 0xFE#8 ∉ chkEncode c ∧ 0xFF#8 ∉ chkEncode c

/-- R143: a destuffed frame is no longer than the raw one and not empty, ends with the terminator, and keeps the first three
bytes of a frame that passed the start and type checks. -/
def Obligations.DestuffKeepsTheHead : Prop :=
  ∀ r : List Byte, r.getLast? = some 0xFF#8 →
    1 ≤ (destuff r).length ∧ (destuff r).length ≤ r.length ∧ (destuff r).getLast? = some 0xFF#8 ∧
    (headOk r = true → (destuff r).take 3 = r.take 3)

/-! The agents' steps. -/

/-- R172, R173, R174: in RX a pause takes effect before the next byte and keeps the partial frame; otherwise one byte is
taken, and a buffer that fills without a terminator is discarded and counted. -/
def Obligations.EngineIntakesOneByte : Prop :=
  ∀ (s : State) (rest : List Agent), s.sched = .engine :: rest → s.eng = .rx →
    (s.pause = true → step s = .next { s with sched := rest, eng := .paused }) ∧
    (s.pause = false → s.rxq = [] → step s = .next { s with sched := rest }) ∧
    (∀ (b : Byte) (q : List Byte), s.pause = false → s.rxq = b :: q → b ≠ 0xFF#8 →
      (s.rxbuf.length + 1 ≠ s.cfg.maxBufferSize →
        step s = .next { s with sched := rest, rxq := q, rxbuf := s.rxbuf ++ [b] }) ∧
      (s.rxbuf.length + 1 = s.cfg.maxBufferSize →
        step s = .next { s with
          sched := rest
          rxq := q
          rxbuf := []
          counters := { s.counters with rxbufOvf := s.counters.rxbufOvf + 1#32 } }))

/-- R254: in TX the ENGINE hands the next byte of the frame to a TX FIFO with room, and goes to FLUSH after the last byte;
with a full FIFO it waits. -/
def Obligations.EngineTransmitsOneByte : Prop :=
  ∀ (s : State) (rest : List Agent) (b : Byte), s.sched = .engine :: rest → s.eng = .tx →
    (s.txq.length < s.cfg.txFifoDepth → s.txbuf[s.txIdx]? = some b →
      step s = .next { s with
        sched := rest
        txq := s.txq ++ [b]
        txIdx := s.txIdx + 1
        eng := if s.txIdx + 1 = s.txbuf.length then .flush else .tx }) ∧
    (s.txq.length = s.cfg.txFifoDepth → step s = .next { s with sched := rest })

/-- R256, R257, R258: FLUSH releases the bus once `txq` is empty; PAUSED is left when PAUSE is 0; RESUME is left once `txq`
is empty; otherwise the ENGINE waits. -/
def Obligations.EngineWaitsInFlushPausedAndResume : Prop :=
  ∀ (s : State) (rest : List Agent), s.sched = .engine :: rest →
    (s.eng = .flush → s.txq = [] → step s = .next { s with sched := rest, dir := false, eng := .rx }) ∧
    (s.eng = .flush → s.txq ≠ [] → step s = .next { s with sched := rest }) ∧
    (s.eng = .paused → s.pause = false → step s = .next { s with sched := rest, eng := .resume }) ∧
    (s.eng = .paused → s.pause = true → step s = .next { s with sched := rest }) ∧
    (s.eng = .resume → s.txq = [] → step s = .next { s with sched := rest, eng := .rx }) ∧
    (s.eng = .resume → s.txq ≠ [] → step s = .next { s with sched := rest })

/-- R171: a byte that arrives while DIR is 1 is lost and not counted; with a full `rxq` it is lost and counted; otherwise it
is queued. Nothing else changes. -/
def Obligations.WireRxDeliversOneByte : Prop :=
  ∀ (s : State) (rest : List Agent) (b : Byte) (q : List Byte), s.sched = .wireRx :: rest → s.busq = b :: q →
    (s.dir = true → step s = .next { s with sched := rest, busq := q }) ∧
    (s.dir = false → s.rxq.length = s.cfg.rxFifoDepth →
      step s = .next { s with
        sched := rest
        busq := q
        counters := { s.counters with rxqOvr := s.counters.rxqOvr + 1#32 } }) ∧
    (s.dir = false → s.rxq.length ≠ s.cfg.rxFifoDepth →
      step s = .next { s with sched := rest, busq := q, rxq := s.rxq ++ [b] })

/-- R259, R42: WIRE_TX moves the head of `txq` to the bus; the CLOCK adds 1 modulo 2^32. -/
def Obligations.WireTxAndClockSteps : Prop :=
  ∀ (s : State) (rest : List Agent),
    (∀ (b : Byte) (q : List Byte), s.sched = .wireTx :: rest → s.txq = b :: q →
      step s = .next { s with sched := rest, txq := q, txlog := s.txlog ++ [b] }) ∧
    (s.sched = .wireTx :: rest → s.txq = [] → step s = .next { s with sched := rest }) ∧
    (s.sched = .clock :: rest → step s = .next { s with sched := rest, nowMs := s.nowMs + 1#32 })

/-- R350, R351, R353: the reset step, from any state, leaves the reset values of the table, and keeps the parameters, the
clock and the bytes already on the bus. -/
def Obligations.ResetStepClearsTheBlock : Prop :=
  ∀ (s : State) (rest : List Agent), s.sched = .rst :: rest →
    ∃ t, step s = .next t ∧
      t.eng = .rx ∧ t.rxbuf = [] ∧ t.rxq = [] ∧ t.txq = [] ∧ t.txbuf.length = 0 ∧ t.txIdx = 0 ∧ t.dir = false ∧
      t.slots = [] ∧ t.idCtr = 0x80#8 ∧ t.respq = [] ∧ t.rawq = [] ∧ t.enqDesc0 = 0#32 ∧ t.enqDesc1 = 0#32 ∧
      (∀ k : Fin 8, t.enqPayload[k] = 0#32) ∧ t.ctrl = 0#32 ∧ t.status = 0x00000004#32 ∧ t.result = 0#32 ∧
      (∀ c, t.counters.get c = 0#32) ∧ t.cfg = s.cfg ∧ t.nowMs = s.nowMs ∧ t.txlog = s.txlog

/-- R350, R64: the registers of `State.reset` read as the reset column of the register map. A sanity statement; `now_ms` is
the model's choice (log 4) and is not read here. -/
def Obligations.ResetRegistersReadAsTheMapSays : Prop :=
  ∀ (a : Nat), a < 0x200 → a / 4 ≠ 5 →
    State.reset.readReg (regAt (BitVec.ofNat 32 a)) =
      if a / 4 = 1 then 0x00000004#32 else if a / 4 = 4 then 0x00000080#32 else 0#32

/-- R21, R38, R64, R65, R66, R68, R290 to R293: a HOST read returns the register's word and changes nothing else (`rdata` is where
the model shows it, log 6): a stored register, STATUS computed from the state, a counter, a window word as the next statement
gives it, and 0 for CMD and the reserved offsets. Address bits 1:0 do not matter (R61). -/
def Obligations.HostReadsTheRegisterMap : Prop :=
  ∀ (s : State) (rest : List Agent) (a : Word) (q : List HostOp) (v : Word),
    s.sched = .host :: rest → s.maint = false → s.hostq = .read a :: q →
    ((a.toNat / 4, v) ∈
      [(0, s.ctrl),
        (1, (BitVec.ofNat 32 (s.rawq.length % 256) <<< 24) ||| (BitVec.ofNat 32 (s.respq.length % 256) <<< 16) |||
          (BitVec.ofNat 32 (s.slots.length % 256) <<< 8) ||| (engNumber s.eng <<< 4) |||
          (if s.txq = [] then 4#32 else 0#32) ||| (if s.rxbuf = [] then 0#32 else 2#32) |||
          (if s.dir then 1#32 else 0#32)),
        (2, s.result), (3, 0#32), (4, s.idCtr.setWidth 32), (5, s.nowMs), (6, s.enqDesc0), (7, s.enqDesc1),
        (16, s.counters.frame), (17, s.counters.sync), (18, s.counters.tx), (19, s.counters.rxqOvr),
        (20, s.counters.rxbufOvf), (21, s.counters.badStart), (22, s.counters.badType), (23, s.counters.short),
        (24, s.counters.chkFail), (25, s.counters.unmatched), (26, s.counters.rawDrop),
        (27, s.counters.retryMismatch), (28, s.counters.retryTimeout), (29, s.counters.drop),
        (30, s.counters.respStall), (31, 0#32),
        (32, s.readReg .respHdr), (33, s.readReg .respAddr), (64, s.readReg .rawHdr)] ∨
      (∃ k : Fin 8, a.toNat / 4 = 8 + k ∧ v = s.enqPayload[k]) ∨
      (∃ k : Fin 16, a.toNat / 4 = 34 + k ∧ v = s.readReg (.respBytes k)) ∨
      (∃ k : Fin 16, a.toNat / 4 = 65 + k ∧ v = s.readReg (.rawBytes k)) ∨
      (v = 0#32 ∧ (50 ≤ a.toNat / 4 ∧ a.toNat / 4 < 64 ∨ 81 ≤ a.toNat / 4 ∧ a.toNat / 4 < 128))) →
    step s = .next { s with sched := rest, hostq := q, rdata := v }

/-- R68, R62, R121, and the kind codes of R104: the window registers show the heads of `respq` and `rawq`, or zeros; an
element holds at most 64 bytes by StepKeepsFifoElements and R9; byte j of a window word k stands at
bits 8(j mod 4)+7 to 8(j mod 4) of word j div 4. -/
def Obligations.WindowsShowTheHeads : Prop :=
  ∀ s : State,
    (s.respq = [] → ∀ k : Fin 16, s.readReg .respHdr = 0#32 ∧ s.readReg .respAddr = 0#32 ∧
      s.readReg (.respBytes k) = 0#32) ∧
    (∀ e q, s.respq = e :: q → e.resp.length ≤ 64 →
      s.readReg .respHdr = 0x80000000#32 ||| (BitVec.ofNat 32 e.resp.length <<< 16) |||
        (e.command.setWidth 32 <<< 8) ||| e.id.setWidth 32 ∧
      s.readReg .respAddr = e.address.setWidth 32 ∧
      ∀ (k : Fin 16) (j : Nat), j < 4 →
        (s.readReg (.respBytes k)).extractLsb' (8 * j) 8 = e.resp.getD (4 * k + j) 0#8) ∧
    (s.rawq = [] → ∀ k : Fin 16, s.readReg .rawHdr = 0#32 ∧ s.readReg (.rawBytes k) = 0#32) ∧
    (∀ f q, s.rawq = f :: q → f.bytes.length ≤ 64 →
      s.readReg .rawHdr = 0x80000000#32 ||| ((BitVec.ofBool f.matched).setWidth 32 <<< 17) |||
        ((BitVec.ofBool f.chkOk).setWidth 32 <<< 16) ||| (kindNumber f.kind <<< 8) |||
        BitVec.ofNat 32 f.bytes.length ∧
      ∀ (k : Fin 16) (j : Nat), j < 4 →
        (s.readReg (.rawBytes k)).extractLsb' (8 * j) 8 = f.bytes.getD (4 * k + j) 0#8)

/-- R65, R290, R291, R292, R293: a HOST write stores the word with reserved bits 0 in CTRL, ENQ_DESC0, ENQ_DESC1 and the
ENQ_PAYLOAD words, and is ignored at every other offset of the block but CMD's. Outside the block, at offsets from 0x200 up,
VBFE never sees the access (R61); that it changes nothing there is the model's choice (log 7, U7). -/
def Obligations.HostWritesOnlyTheWritableRegisters : Prop :=
  ∀ (s : State) (rest : List Agent) (a w : Word) (q : List HostOp),
    s.sched = .host :: rest → s.maint = false → s.hostq = .write a w :: q →
    (a.toNat / 4 = 0 → step s = .next { s with sched := rest, hostq := q, ctrl := w &&& 0x00000003#32 }) ∧
    (a.toNat / 4 = 6 → step s = .next { s with sched := rest, hostq := q, enqDesc0 := w &&& 0xFF03FFFF#32 }) ∧
    (a.toNat / 4 = 7 → step s = .next { s with sched := rest, hostq := q, enqDesc1 := w &&& 0x0000FFFF#32 }) ∧
    (∀ k : Fin 8, a.toNat / 4 = 8 + k →
      step s = .next { s with sched := rest, hostq := q, enqPayload := s.enqPayload.set k w }) ∧
    (a.toNat / 4 ∈ [1, 2, 4, 5] ∨ (16 ≤ a.toNat / 4 ∧ a.toNat / 4 < 128) →
      step s = .next { s with sched := rest, hostq := q }) ∧
    (128 ≤ a.toNat / 4 → step s = .next { s with sched := rest, hostq := q })

/-! The whole machine. -/

/-- R22: `eng` moves only as the table of transitions lists, or to RX by a reset. -/
def Obligations.EngineMovesOnlyAsListed : Prop :=
  ∀ s t : State, step s = .next t →
    (s.eng, t.eng) ∈ engMoves ∨ (s.sched.head? = some .rst ∧ t.eng = .rx)

/-- R28, R259, R351: the bytes on the bus only grow, one byte at a time, by the head of `txq`; nothing takes one back. -/
def Obligations.BusLogOnlyGrows : Prop :=
  ∀ s t : State, step s = .next t →
    t.txlog = s.txlog ∨ ∃ b q, s.txq = b :: q ∧ t.txq = q ∧ t.txlog = s.txlog ++ [b]

/-- R255, R252: while a frame is being sent, no step but a reset changes what has been, is being and will be sent: the bus
log, then `txq`, then the rest of `txbuf`. So the bus carries exactly the frame. -/
def Obligations.TransmissionIsNeverAltered : Prop :=
  ∀ s t : State, s.sending → s.sched.head? ≠ some .rst → step s = .next t → t.outbound = s.outbound

/-- R260, R171, R254, R256: no step taken while a frame is being sent starts another transmission or takes a received byte:
CNT_TX and CNT_SYNC do not move but for a CLR_COUNTERS or a reset that zeroes them, and `rxq` does not change but for a
reset. -/
def Obligations.NothingIsReceivedWhileSending : Prop :=
  ∀ s t : State, s.sending → s.dir = true → step s = .next t →
    (t.counters.tx = s.counters.tx ∨ t.counters = Counters.zero) ∧
    (t.counters.sync = s.counters.sync ∨ t.counters = Counters.zero) ∧
    (s.sched.head? ≠ some .rst → t.rxq = s.rxq ∧ t.rxbuf = s.rxbuf)

/-- R351, R41, R42: the parameters never change, and the clock moves by a CLOCK step only. -/
def Obligations.ParametersAndClockAreOutsideTheBlock : Prop :=
  ∀ s t : State, step s = .next t →
    t.cfg = s.cfg ∧
    (t.nowMs = s.nowMs ∨
      (t.nowMs = s.nowMs + 1#32 ∧ (s.sched.head? = some .clock ∨ (s.sched = [] ∧ s.defaultAgent = .clock))))

/-- R320, R327: no step of a state whose ENGINE is in order stops: VBFE has no traps. -/
def Obligations.NoEventStopsTheMachine : Prop :=
  ∀ s : State, TurnaroundInv s → s.CanStep

/-- R226, R43, R32, R75: in one step, an entry that keeps its id keeps everything ENQUEUE gave it; its resend count stays or
grows by one, and then it is unsent without a response; as a number it never decreases and never exceeds MAX_RESEND when the
registry keeps its invariant (StepKeepsRegistryEntries); and a stored response stays or is cleared, never overwritten. -/
def Obligations.EntriesAgeMonotonically : Prop :=
  ∀ (s t : State) (e e' : Entry), IdsInv s → step s = .next t → e ∈ s.slots → e' ∈ t.slots → e.id = e'.id →
    (e'.command = e.command ∧ e'.address = e.address ∧ e'.expCode = e.expCode ∧ e'.respExp = e.respExp ∧
      e'.payload = e.payload) ∧
    (e'.resend = e.resend ∨ (e'.resend = e.resend + 1#8 ∧ e'.isSent = false ∧ e'.resp = [])) ∧
    (RegistryInv s →
      (e'.resend.toNat = e.resend.toNat ∨ e'.resend.toNat = e.resend.toNat + 1) ∧
        e'.resend.toNat ≤ s.cfg.maxResend) ∧
    (e.resp ≠ [] → e'.resp = e.resp ∨ e'.resp = [])

/-- R43, R71, R250: an entry becomes sent only in the step in which the ENGINE leaves RX for TX. -/
def Obligations.OnlyTheArbiterMarksAnEntrySent : Prop :=
  ∀ (s t : State) (e' : Entry), step s = .next t → e' ∈ t.slots → e'.isSent = true →
    (∃ e ∈ s.slots, e.id = e'.id ∧ e.isSent = true) ∨ (s.eng = .rx ∧ t.eng = .tx)

/-! Invariants. -/

/-- R350: every invariant holds right after reset, for the reference parameters. -/
def Obligations.ResetMeetsTheInvariants : Prop :=
  IdsInv State.reset ∧ RegistryInv State.reset ∧ CapacityInv State.reset ∧ TurnaroundInv State.reset ∧
    HostRegInv State.reset

/-- R225, R33: the ids are distinct and in 0x80..0xFF right after reset, whatever the parameters and the clock, and every
step keeps them so. -/
def Obligations.StepKeepsIdsUnique : Prop :=
  (∀ (c : Config) (now : Word), IdsInv (State.resetWith c now)) ∧
    ∀ s t : State, IdsInv s → step s = .next t → IdsInv t

/-- R230: every step keeps the entries' invariants and the bound of the assembly buffer. -/
def Obligations.StepKeepsRegistryEntries : Prop :=
  ∀ s t : State, RegistryInv s → step s = .next t → RegistryInv t

/-- R24, R25, R30, R34, R35: every step keeps the FIFOs and the registry within their capacities. -/
def Obligations.StepKeepsCapacities : Prop :=
  ∀ s t : State, CapacityInv s → step s = .next t → CapacityInv t

/-- R27, R258, R259, R261: every step keeps DIR equal to 'in TX or FLUSH', and `txq` empty outside them. -/
def Obligations.StepKeepsTurnaround : Prop :=
  ∀ s t : State, TurnaroundInv s → step s = .next t → TurnaroundInv t

/-- R36, R37, R65: every step keeps the reserved bits of the stored host registers 0. -/
def Obligations.StepKeepsReservedBitsZero : Prop :=
  ∀ s t : State, HostRegInv s → step s = .next t → HostRegInv t

/-- R124, R175, R220, R230: the elements of `respq` hold 8 to MAX_BUFFER_SIZE bytes and those of `rawq` a completed frame,
right after reset, whatever the parameters and the clock, and after every step. -/
def Obligations.StepKeepsFifoElements : Prop :=
  (∀ (c : Config) (now : Word), FifoElementsInv (State.resetWith c now)) ∧
    ∀ s t : State, RegistryInv s → FifoElementsInv s → step s = .next t → FifoElementsInv t

/-! The order of the scans. -/

/-- R222, R223, R221: the registry an EXPIRE leaves, slot by slot: indices ascending, and after a removal the last entry in
the place of the removed one, examined next. -/
def Obligations.ExpireScansInIndexOrder : Prop :=
  ∀ s : State, ∃ t, exec .expire s = .next t ∧ ScanLeaves s.afterExpiry s.slots t.slots

/-- R222, R223, R220, R72: the registry a HARVEST leaves, slot by slot, and the responses it emits, in the order of `respq`;
the first answered entries examined are emitted, and the others stall once `respq` is full. -/
def Obligations.HarvestScansInIndexOrder : Prop :=
  ∀ s : State, s.respq.length ≤ s.cfg.respFifoDepth →
    ∃ t out, exec .harvest s = .next t ∧
      HarvestLeaves s (s.cfg.respFifoDepth - s.respq.length) s.slots t.slots out ∧
      t.respq = s.respq ++ out.map fun e =>
        { id := e.id, command := e.command, address := e.address, resp := e.resp }
end

