-- ==== Sys2Proof/Laws/Codec.lean ====
section
/-! SUPPORT. The laws of the frame codec (40_codec.md) that the statements about whole frames rest on. -/

namespace Sys2Proof

/-! Sums (R12). -/

@[simp] theorem sum8_nil : sum8 [] = 0#8 := rfl

@[simp] theorem sum8_cons (b : Byte) (l : List Byte) : sum8 (b :: l) = b + sum8 l := rfl

@[simp] theorem sum8_append (l m : List Byte) : sum8 (l ++ m) = sum8 l + sum8 m := by
  induction l with
  | nil => simp
  | cons b l ih => simp [ih, BitVec.add_assoc]

/-! The checksum encoding (R144, R145). -/

/-- The two forms of a checksum have the same sum modulo 256. -/
theorem sum8_chkEncode (c : Byte) : sum8 (chkEncode c) = c := by revert c; decide

theorem chkEncode_length (c : Byte) : (chkEncode c).length = 1 ∨ (chkEncode c).length = 2 := by
  unfold chkEncode; split <;> simp

/-- A checksum byte is at most 0xFA, so it is neither a type byte nor a terminator. -/
theorem mem_chkEncode_le {c x : Byte} (h : x ∈ chkEncode c) : x ≤ 0xFA#8 := by
  unfold chkEncode at h
  split at h
  next hc => simp_all
  next hc =>
    have key : ∀ c : Byte, ¬ c ≤ 0xFA#8 → c - 0xFA#8 ≤ 0xFA#8 := by decide
    rcases List.mem_pair.1 h with rfl | rfl
    · decide
    · exact key c hc

/-! Stuffing (R140). -/

@[simp] theorem stuff_nil : stuff [] = [] := rfl

@[simp] theorem stuff_cons (b : Byte) (p : List Byte) : stuff (b :: p) = stuffByte b ++ stuff p := rfl

@[simp] theorem stuff_append (p q : List Byte) : stuff (p ++ q) = stuff p ++ stuff q := by simp [stuff]

theorem stuffByte_length (b : Byte) : (stuffByte b).length = if 0xFA#8 ≤ b then 2 else 1 := by
  unfold stuffByte escByte; split <;> simp

theorem mem_stuffByte_le {b x : Byte} (h : x ∈ stuffByte b) : x ≤ 0xFA#8 := by
  unfold stuffByte at h
  split at h
  next =>
    have key : ∀ b : Byte, (b &&& 0x0F#8) ||| 0x70#8 ≤ 0xFA#8 := by decide
    rcases List.mem_pair.1 h with rfl | rfl
    · decide
    · exact key b
  next hb => simp_all [escByte, BitVec.le_def]; omega

/-- A stuffed byte is at most 0xFA. -/
theorem mem_stuff_le {p : List Byte} {x : Byte} (h : x ∈ stuff p) : x ≤ 0xFA#8 := by
  simp only [stuff, List.mem_flatMap] at h
  obtain ⟨b, -, hx⟩ := h
  exact mem_stuffByte_le hx

/-- An escaped byte's follower restores it. -/
theorem escape_restores {b : Byte} (h : escByte ≤ b) : ((b &&& 0x0F#8) ||| 0x70#8) ||| 0x80#8 = b := by
  revert b; decide

/-! Destuffing (R142). -/

@[simp] theorem destuff_nil : destuff [] = [endOfFrame] := rfl

@[simp] theorem destuff_single (b : Byte) : destuff [b] = [endOfFrame] := rfl

/-- A byte that is no escape passes. -/
theorem destuff_plain {a b : Byte} {l : List Byte} (h : a ≠ escByte) :
    destuff (a :: b :: l) = a :: destuff (b :: l) := by simp [destuff, h]

/-- An escape before the last byte consumes its follower. -/
theorem destuff_escape {b c : Byte} {l : List Byte} :
    destuff (escByte :: b :: c :: l) = (b ||| 0x80#8) :: destuff (c :: l) := by simp [destuff]

theorem destuff_ne_nil (r : List Byte) : destuff r ≠ [] := by
  fun_cases destuff r <;> simp

/-- Destuffing never lengthens a frame. -/
theorem destuff_length_le (r : List Byte) : (destuff r).length ≤ max r.length 1 := by
  fun_induction destuff r <;> simp_all
  all_goals omega

/-! Frames (R146, R147). -/

/-- What `build_frame` makes, with its parts named. -/
theorem buildFrame_eq (nr : Byte) (p : List Byte) :
    buildFrame nr p = 0x98#8 :: 0xF7#8 :: 0xFE#8 :: (nr &&& 0x7F#8) :: (stuff p ++
      (chkEncode (0x01#8 - sum8 (0xFE#8 :: (nr &&& 0x7F#8) :: stuff p)) ++ [0xFF#8])) := by
  simp [buildFrame, sealFrame, chkValue, mk3Id0, mk3Id1, dataFrame, endOfFrame]

/-- The length of a built frame, from its parts. -/
theorem buildFrame_pos (nr : Byte) (p : List Byte) : 0 < (buildFrame nr p).length := by
  simp [buildFrame_eq]

theorem validate_iff (r : List Byte) : validate r = true ↔ 4 ≤ r.length ∧ sum8 (r.drop 2).dropLast = 0x01#8 := by
  simp [validate]

theorem startOk_iff (r : List Byte) : startOk r = true ↔ r[0]? = some mpId ∧ r[1]? = some mpId := by
  rcases r with _ | ⟨a, _ | ⟨b, r⟩⟩ <;> simp [startOk]

theorem headOk_iff (r : List Byte) :
    headOk r = true ↔ (r[0]? = some mpId ∧ r[1]? = some mpId) ∧ 4 ≤ r.length ∧
      (r[2]? = some syncFrame ∨ r[2]? = some dataFrame) := by
  simp [headOk, startOk_iff, and_assoc]

end Sys2Proof
end

