-- ==== Sys2Proof/Laws/Decode.lean ====
section
/-! SUPPORT. The laws of the decoders: which instructions each can give, and that a decoded request is its encoding. -/

namespace Sys2Proof

/-- The instructions a CMD word can be (R115). -/
def Instr.isCommand : Instr → Bool
  | .nop | .enqueue | .enqueueC | .expire | .harvest | .maintain | .popResp | .popRaw | .clrCounters | .reserved _ => true
  | _ => false

/-- The kinds of the completed frame `r` (R104). -/
def Instr.isFrame (r : List Byte) : Instr → Bool
  | .rxSync f | .rxSyncOther f | .rxResponse f | .rxInfo f | .rxLed f | .rxBattery f | .rxCharger f | .rxAcPhase f
  | .rxDataOther f | .rxBadStart f | .rxBadType f | .rxShort f | .rxChkDiscard f => decide (f = r)
  | _ => false

theorem decodeCmd_isCommand (w : Word) : (decodeCmd w).isCommand = true := by
  unfold decodeCmd
  split <;> first | rfl | (split <;> rfl)

theorem decodeDataKind_isFrame (r d : List Byte) : (decodeDataKind r d).isFrame r = true := by
  unfold decodeDataKind
  split <;> first | (split <;> simp [Instr.isFrame]) | simp [Instr.isFrame]

theorem decodeFrame_isFrame (enforce : Bool) (r : List Byte) : (decodeFrame enforce r).isFrame r = true := by
  unfold decodeFrame decodeDestuffed
  repeat' split
  all_goals first | exact decodeDataKind_isFrame _ _ | simp [Instr.isFrame]

/-- A frame that is dispatched as RESPONSE has at least 8 destuffed bytes (R177). -/
theorem decodeFrame_response_length {enforce : Bool} {r : List Byte} (h : decodeFrame enforce r = .rxResponse r) :
    8 ≤ (destuff r).length := by
  unfold decodeFrame decodeDestuffed decodeDataKind at h
  repeat' split at h
  all_goals first | assumption | simp at h

theorem decodeSwitch_some {state : Byte} {st : SwitchState} (h : decodeSwitch state = some st) :
    switchByte st = state := by
  have key : ∀ b : Byte, ∀ st ∈ decodeSwitch b, switchByte st = b := by decide
  exact key state st h

theorem decodeCoded_encode {t : Target} {a : Reply} {b1 code : Byte} {body : List Byte} {i : Instr}
    (h : decodeCoded t a b1 code body = some i) : encode i = .request (codedRequest t a b1 code body) := by
  have hc : ∀ n : Nat, code.toNat = n → n < 256 → code = BitVec.ofNat 8 n := by
    intro n hn h256; apply BitVec.eq_of_toNat_eq; simp [hn, Nat.mod_eq_of_lt h256]
  unfold decodeCoded at h
  split at h
  all_goals try (split at h)
  all_goals first
    | (next heq => cases h; rw [hc _ heq (by decide)]; rfl)
    | (next heq _ => cases h; rw [hc _ heq (by decide)]; rfl)
    | simp at h

/-- A request that decodes is the encoding of its instruction: no bit of it is dropped. -/
theorem decodeRequest_encode {q : Request} {i : Instr} (h : decodeRequest q = some i) : encode i = .request q := by
  unfold decodeRequest at h
  simp only at h
  split at h
  · split at h
    · split at h
      next hq => cases h; rw [encode, ← hq.2]
      next => simp at h
    · simp at h
  · split at h
    next hq => rw [decodeCoded_encode h, ← hq.2]
    next => simp at h
  · simp at h

end Sys2Proof
end

