-- ==== Sys2Proof/Laws/Operands.lean ====
section
/-! SUPPORT. The laws of the operand forms and of the byte windows. -/

namespace Sys2Proof.Machine

/-- Byte `k` of a packed word is its `k`-th byte (R62). -/
theorem wordByte_wordOfBytes (b0 b1 b2 b3 : Byte) :
    wordByte (wordOfBytes b0 b1 b2 b3) 0 = b0 ∧ wordByte (wordOfBytes b0 b1 b2 b3) 1 = b1 ∧
      wordByte (wordOfBytes b0 b1 b2 b3) 2 = b2 ∧ wordByte (wordOfBytes b0 b1 b2 b3) 3 = b3 := by
  unfold wordByte wordOfBytes
  have key : ∀ k i, i < 8 → (BitVec.extractLsb' (8 * k) 8 (b3 ++ b2 ++ b1 ++ b0)).getLsbD i =
      (b3 ++ b2 ++ b1 ++ b0).getLsbD (8 * k + i) := by intro k i hi; simp [hi]
  refine ⟨?_, ?_, ?_, ?_⟩ <;>
    (refine BitVec.eq_of_getLsbD_eq fun i hi => (key _ i hi).trans ?_
     rw [BitVec.getLsbD_append, BitVec.getLsbD_append, BitVec.getLsbD_append]
     split_ifs <;> first | omega | (congr 1; omega))

/-- The staging registers hold 32 bytes (R36). -/
@[simp] theorem State.stagedBytes_length (s : State) : s.stagedBytes.length = 32 := by
  have h : (s.enqPayload.toList.map fun w => (wordBytes w).length) = List.replicate 8 4 := by
    rw [List.eq_replicate_iff]
    simp [wordBytes]
  rw [State.stagedBytes, List.length_flatMap, h]
  rfl

/-- ENQUEUE copies as many bytes as LEN says, when the length is legal (R119, R214). -/
theorem State.stagedPayload_length {s : State} (h : s.badLength = false) (id : Byte) :
    (s.stagedPayload id).length = s.descLen ∧ 1 ≤ s.descLen ∧ s.descLen ≤ 32 := by
  have hb : 1 ≤ s.descLen ∧ s.descLen ≤ 32 := by
    rw [State.badLength, show payloadMax = 32 from rfl] at h
    simp at h
    omega
  refine ⟨?_, hb⟩
  unfold State.stagedPayload
  split <;> simp <;> omega

end Sys2Proof.Machine
end

