-- ==== Sys2Proof/Laws/State.lean ====
section
/-! SUPPORT. One lemma per field for each named update of State, and the laws of the counters. -/

namespace Sys2Proof.Machine

@[simp] theorem Counters.get_zero (c : Counter) : Counters.zero.get c = 0#32 := by cases c <;> rfl

/-- A bump adds one to its own counter and to no other (R40). -/
@[simp] theorem Counters.get_bump (k : Counters) (a c : Counter) :
    (k.bump a).get c = k.get c + if a = c then 1#32 else 0#32 := by
  cases a <;> cases c <;> simp [Counters.bump, Counters.get]

/-- Counters with the same values are the same. -/
theorem Counters.ext_get {k l : Counters} (h : ∀ c, k.get c = l.get c) : k = l := by
  have h0 := h .frame; have h1 := h .sync; have h2 := h .tx; have h3 := h .rxqOvr; have h4 := h .rxbufOvf
  have h5 := h .badStart; have h6 := h .badType; have h7 := h .short; have h8 := h .chkFail
  have h9 := h .unmatched; have h10 := h .rawDrop; have h11 := h .retryMismatch; have h12 := h .retryTimeout
  have h13 := h .drop; have h14 := h .respStall
  cases k; cases l; simp_all [Counters.get]

/-! `State.bump`. -/

@[simp] theorem State.bump_cfg (s : State) (c : Counter) : (s.bump c).cfg = s.cfg := rfl
@[simp] theorem State.bump_eng (s : State) (c : Counter) : (s.bump c).eng = s.eng := rfl
@[simp] theorem State.bump_rxbuf (s : State) (c : Counter) : (s.bump c).rxbuf = s.rxbuf := rfl
@[simp] theorem State.bump_rxq (s : State) (c : Counter) : (s.bump c).rxq = s.rxq := rfl
@[simp] theorem State.bump_txq (s : State) (c : Counter) : (s.bump c).txq = s.txq := rfl
@[simp] theorem State.bump_txbuf (s : State) (c : Counter) : (s.bump c).txbuf = s.txbuf := rfl
@[simp] theorem State.bump_txIdx (s : State) (c : Counter) : (s.bump c).txIdx = s.txIdx := rfl
@[simp] theorem State.bump_dir (s : State) (c : Counter) : (s.bump c).dir = s.dir := rfl
@[simp] theorem State.bump_txlog (s : State) (c : Counter) : (s.bump c).txlog = s.txlog := rfl
@[simp] theorem State.bump_slots (s : State) (c : Counter) : (s.bump c).slots = s.slots := rfl
@[simp] theorem State.bump_idCtr (s : State) (c : Counter) : (s.bump c).idCtr = s.idCtr := rfl
@[simp] theorem State.bump_respq (s : State) (c : Counter) : (s.bump c).respq = s.respq := rfl
@[simp] theorem State.bump_rawq (s : State) (c : Counter) : (s.bump c).rawq = s.rawq := rfl
@[simp] theorem State.bump_enqDesc0 (s : State) (c : Counter) : (s.bump c).enqDesc0 = s.enqDesc0 := rfl
@[simp] theorem State.bump_enqDesc1 (s : State) (c : Counter) : (s.bump c).enqDesc1 = s.enqDesc1 := rfl
@[simp] theorem State.bump_enqPayload (s : State) (c : Counter) : (s.bump c).enqPayload = s.enqPayload := rfl
@[simp] theorem State.bump_ctrl (s : State) (c : Counter) : (s.bump c).ctrl = s.ctrl := rfl
@[simp] theorem State.bump_result (s : State) (c : Counter) : (s.bump c).result = s.result := rfl
@[simp] theorem State.bump_counters (s : State) (c : Counter) : (s.bump c).counters = s.counters.bump c := rfl
@[simp] theorem State.bump_nowMs (s : State) (c : Counter) : (s.bump c).nowMs = s.nowMs := rfl
@[simp] theorem State.bump_maint (s : State) (c : Counter) : (s.bump c).maint = s.maint := rfl
@[simp] theorem State.bump_rdata (s : State) (c : Counter) : (s.bump c).rdata = s.rdata := rfl
@[simp] theorem State.bump_hostq (s : State) (c : Counter) : (s.bump c).hostq = s.hostq := rfl
@[simp] theorem State.bump_busq (s : State) (c : Counter) : (s.bump c).busq = s.busq := rfl
@[simp] theorem State.bump_sched (s : State) (c : Counter) : (s.bump c).sched = s.sched := rfl
@[simp] theorem State.bump_freeCtr (s : State) (c : Counter) : (s.bump c).freeCtr = s.freeCtr := rfl

/-! `State.setResult`. -/

@[simp] theorem State.setResult_cfg (s : State) (w : Word) : (s.setResult w).cfg = s.cfg := rfl
@[simp] theorem State.setResult_eng (s : State) (w : Word) : (s.setResult w).eng = s.eng := rfl
@[simp] theorem State.setResult_rxbuf (s : State) (w : Word) : (s.setResult w).rxbuf = s.rxbuf := rfl
@[simp] theorem State.setResult_rxq (s : State) (w : Word) : (s.setResult w).rxq = s.rxq := rfl
@[simp] theorem State.setResult_txq (s : State) (w : Word) : (s.setResult w).txq = s.txq := rfl
@[simp] theorem State.setResult_txbuf (s : State) (w : Word) : (s.setResult w).txbuf = s.txbuf := rfl
@[simp] theorem State.setResult_txIdx (s : State) (w : Word) : (s.setResult w).txIdx = s.txIdx := rfl
@[simp] theorem State.setResult_dir (s : State) (w : Word) : (s.setResult w).dir = s.dir := rfl
@[simp] theorem State.setResult_txlog (s : State) (w : Word) : (s.setResult w).txlog = s.txlog := rfl
@[simp] theorem State.setResult_slots (s : State) (w : Word) : (s.setResult w).slots = s.slots := rfl
@[simp] theorem State.setResult_idCtr (s : State) (w : Word) : (s.setResult w).idCtr = s.idCtr := rfl
@[simp] theorem State.setResult_respq (s : State) (w : Word) : (s.setResult w).respq = s.respq := rfl
@[simp] theorem State.setResult_rawq (s : State) (w : Word) : (s.setResult w).rawq = s.rawq := rfl
@[simp] theorem State.setResult_enqDesc0 (s : State) (w : Word) : (s.setResult w).enqDesc0 = s.enqDesc0 := rfl
@[simp] theorem State.setResult_enqDesc1 (s : State) (w : Word) : (s.setResult w).enqDesc1 = s.enqDesc1 := rfl
@[simp] theorem State.setResult_enqPayload (s : State) (w : Word) : (s.setResult w).enqPayload = s.enqPayload := rfl
@[simp] theorem State.setResult_ctrl (s : State) (w : Word) : (s.setResult w).ctrl = s.ctrl := rfl
@[simp] theorem State.setResult_result (s : State) (w : Word) : (s.setResult w).result = w := rfl
@[simp] theorem State.setResult_counters (s : State) (w : Word) : (s.setResult w).counters = s.counters := rfl
@[simp] theorem State.setResult_nowMs (s : State) (w : Word) : (s.setResult w).nowMs = s.nowMs := rfl
@[simp] theorem State.setResult_maint (s : State) (w : Word) : (s.setResult w).maint = s.maint := rfl
@[simp] theorem State.setResult_rdata (s : State) (w : Word) : (s.setResult w).rdata = s.rdata := rfl
@[simp] theorem State.setResult_hostq (s : State) (w : Word) : (s.setResult w).hostq = s.hostq := rfl
@[simp] theorem State.setResult_busq (s : State) (w : Word) : (s.setResult w).busq = s.busq := rfl
@[simp] theorem State.setResult_sched (s : State) (w : Word) : (s.setResult w).sched = s.sched := rfl
@[simp] theorem State.setResult_freeCtr (s : State) (w : Word) : (s.setResult w).freeCtr = s.freeCtr := rfl

/-! `State.remove`. -/

@[simp] theorem State.remove_cfg (s : State) (i : Nat) : (s.remove i).cfg = s.cfg := rfl
@[simp] theorem State.remove_eng (s : State) (i : Nat) : (s.remove i).eng = s.eng := rfl
@[simp] theorem State.remove_rxbuf (s : State) (i : Nat) : (s.remove i).rxbuf = s.rxbuf := rfl
@[simp] theorem State.remove_rxq (s : State) (i : Nat) : (s.remove i).rxq = s.rxq := rfl
@[simp] theorem State.remove_txq (s : State) (i : Nat) : (s.remove i).txq = s.txq := rfl
@[simp] theorem State.remove_txbuf (s : State) (i : Nat) : (s.remove i).txbuf = s.txbuf := rfl
@[simp] theorem State.remove_txIdx (s : State) (i : Nat) : (s.remove i).txIdx = s.txIdx := rfl
@[simp] theorem State.remove_dir (s : State) (i : Nat) : (s.remove i).dir = s.dir := rfl
@[simp] theorem State.remove_txlog (s : State) (i : Nat) : (s.remove i).txlog = s.txlog := rfl
@[simp] theorem State.remove_slots (s : State) (i : Nat) : (s.remove i).slots = swapRemove s.slots i := rfl
@[simp] theorem State.remove_idCtr (s : State) (i : Nat) : (s.remove i).idCtr = s.idCtr := rfl
@[simp] theorem State.remove_respq (s : State) (i : Nat) : (s.remove i).respq = s.respq := rfl
@[simp] theorem State.remove_rawq (s : State) (i : Nat) : (s.remove i).rawq = s.rawq := rfl
@[simp] theorem State.remove_enqDesc0 (s : State) (i : Nat) : (s.remove i).enqDesc0 = s.enqDesc0 := rfl
@[simp] theorem State.remove_enqDesc1 (s : State) (i : Nat) : (s.remove i).enqDesc1 = s.enqDesc1 := rfl
@[simp] theorem State.remove_enqPayload (s : State) (i : Nat) : (s.remove i).enqPayload = s.enqPayload := rfl
@[simp] theorem State.remove_ctrl (s : State) (i : Nat) : (s.remove i).ctrl = s.ctrl := rfl
@[simp] theorem State.remove_result (s : State) (i : Nat) : (s.remove i).result = s.result := rfl
@[simp] theorem State.remove_counters (s : State) (i : Nat) : (s.remove i).counters = s.counters := rfl
@[simp] theorem State.remove_nowMs (s : State) (i : Nat) : (s.remove i).nowMs = s.nowMs := rfl
@[simp] theorem State.remove_maint (s : State) (i : Nat) : (s.remove i).maint = s.maint := rfl
@[simp] theorem State.remove_rdata (s : State) (i : Nat) : (s.remove i).rdata = s.rdata := rfl
@[simp] theorem State.remove_hostq (s : State) (i : Nat) : (s.remove i).hostq = s.hostq := rfl
@[simp] theorem State.remove_busq (s : State) (i : Nat) : (s.remove i).busq = s.busq := rfl
@[simp] theorem State.remove_sched (s : State) (i : Nat) : (s.remove i).sched = s.sched := rfl
@[simp] theorem State.remove_freeCtr (s : State) (i : Nat) : (s.remove i).freeCtr = s.freeCtr := rfl

/-! `State.raise`: a counter or RESULT, and nothing else (R13, R321). -/

@[simp] theorem State.raise_cfg (s : State) (e : Event) : (s.raise e).cfg = s.cfg := by cases e <;> rfl
@[simp] theorem State.raise_eng (s : State) (e : Event) : (s.raise e).eng = s.eng := by cases e <;> rfl
@[simp] theorem State.raise_rxbuf (s : State) (e : Event) : (s.raise e).rxbuf = s.rxbuf := by cases e <;> rfl
@[simp] theorem State.raise_rxq (s : State) (e : Event) : (s.raise e).rxq = s.rxq := by cases e <;> rfl
@[simp] theorem State.raise_txq (s : State) (e : Event) : (s.raise e).txq = s.txq := by cases e <;> rfl
@[simp] theorem State.raise_txbuf (s : State) (e : Event) : (s.raise e).txbuf = s.txbuf := by cases e <;> rfl
@[simp] theorem State.raise_txIdx (s : State) (e : Event) : (s.raise e).txIdx = s.txIdx := by cases e <;> rfl
@[simp] theorem State.raise_dir (s : State) (e : Event) : (s.raise e).dir = s.dir := by cases e <;> rfl
@[simp] theorem State.raise_txlog (s : State) (e : Event) : (s.raise e).txlog = s.txlog := by cases e <;> rfl
@[simp] theorem State.raise_slots (s : State) (e : Event) : (s.raise e).slots = s.slots := by cases e <;> rfl
@[simp] theorem State.raise_idCtr (s : State) (e : Event) : (s.raise e).idCtr = s.idCtr := by cases e <;> rfl
@[simp] theorem State.raise_respq (s : State) (e : Event) : (s.raise e).respq = s.respq := by cases e <;> rfl
@[simp] theorem State.raise_rawq (s : State) (e : Event) : (s.raise e).rawq = s.rawq := by cases e <;> rfl
@[simp] theorem State.raise_enqDesc0 (s : State) (e : Event) : (s.raise e).enqDesc0 = s.enqDesc0 := by cases e <;> rfl
@[simp] theorem State.raise_enqDesc1 (s : State) (e : Event) : (s.raise e).enqDesc1 = s.enqDesc1 := by cases e <;> rfl
@[simp] theorem State.raise_enqPayload (s : State) (e : Event) :
    (s.raise e).enqPayload = s.enqPayload := by cases e <;> rfl
@[simp] theorem State.raise_ctrl (s : State) (e : Event) : (s.raise e).ctrl = s.ctrl := by cases e <;> rfl
@[simp] theorem State.raise_result (s : State) (e : Event) :
    (s.raise e).result = (e.result.map resultOf).getD s.result := by cases e <;> rfl
@[simp] theorem State.raise_counters (s : State) (e : Event) :
    (s.raise e).counters = (e.counter.map s.counters.bump).getD s.counters := by cases e <;> rfl
@[simp] theorem State.raise_nowMs (s : State) (e : Event) : (s.raise e).nowMs = s.nowMs := by cases e <;> rfl
@[simp] theorem State.raise_maint (s : State) (e : Event) : (s.raise e).maint = s.maint := by cases e <;> rfl
@[simp] theorem State.raise_rdata (s : State) (e : Event) : (s.raise e).rdata = s.rdata := by cases e <;> rfl
@[simp] theorem State.raise_hostq (s : State) (e : Event) : (s.raise e).hostq = s.hostq := by cases e <;> rfl
@[simp] theorem State.raise_busq (s : State) (e : Event) : (s.raise e).busq = s.busq := by cases e <;> rfl
@[simp] theorem State.raise_sched (s : State) (e : Event) : (s.raise e).sched = s.sched := by cases e <;> rfl
@[simp] theorem State.raise_freeCtr (s : State) (e : Event) : (s.raise e).freeCtr = s.freeCtr := by cases e <;> rfl

/-! `State.checksumEvent`: CNT_CHK_FAIL alone (R179). -/

@[simp] theorem State.checksumEvent_cfg (s : State) (r : List Byte) :
    (s.checksumEvent r).cfg = s.cfg := by
  unfold State.checksumEvent; split <;> rfl
@[simp] theorem State.checksumEvent_eng (s : State) (r : List Byte) :
    (s.checksumEvent r).eng = s.eng := by
  unfold State.checksumEvent; split <;> rfl
@[simp] theorem State.checksumEvent_rxbuf (s : State) (r : List Byte) :
    (s.checksumEvent r).rxbuf = s.rxbuf := by
  unfold State.checksumEvent; split <;> rfl
@[simp] theorem State.checksumEvent_rxq (s : State) (r : List Byte) :
    (s.checksumEvent r).rxq = s.rxq := by
  unfold State.checksumEvent; split <;> rfl
@[simp] theorem State.checksumEvent_txq (s : State) (r : List Byte) :
    (s.checksumEvent r).txq = s.txq := by
  unfold State.checksumEvent; split <;> rfl
@[simp] theorem State.checksumEvent_txbuf (s : State) (r : List Byte) :
    (s.checksumEvent r).txbuf = s.txbuf := by
  unfold State.checksumEvent; split <;> rfl
@[simp] theorem State.checksumEvent_txIdx (s : State) (r : List Byte) :
    (s.checksumEvent r).txIdx = s.txIdx := by
  unfold State.checksumEvent; split <;> rfl
@[simp] theorem State.checksumEvent_dir (s : State) (r : List Byte) :
    (s.checksumEvent r).dir = s.dir := by
  unfold State.checksumEvent; split <;> rfl
@[simp] theorem State.checksumEvent_txlog (s : State) (r : List Byte) :
    (s.checksumEvent r).txlog = s.txlog := by
  unfold State.checksumEvent; split <;> rfl
@[simp] theorem State.checksumEvent_slots (s : State) (r : List Byte) :
    (s.checksumEvent r).slots = s.slots := by
  unfold State.checksumEvent; split <;> rfl
@[simp] theorem State.checksumEvent_idCtr (s : State) (r : List Byte) :
    (s.checksumEvent r).idCtr = s.idCtr := by
  unfold State.checksumEvent; split <;> rfl
@[simp] theorem State.checksumEvent_respq (s : State) (r : List Byte) :
    (s.checksumEvent r).respq = s.respq := by
  unfold State.checksumEvent; split <;> rfl
@[simp] theorem State.checksumEvent_rawq (s : State) (r : List Byte) :
    (s.checksumEvent r).rawq = s.rawq := by
  unfold State.checksumEvent; split <;> rfl
@[simp] theorem State.checksumEvent_enqDesc0 (s : State) (r : List Byte) :
    (s.checksumEvent r).enqDesc0 = s.enqDesc0 := by
  unfold State.checksumEvent; split <;> rfl
@[simp] theorem State.checksumEvent_enqDesc1 (s : State) (r : List Byte) :
    (s.checksumEvent r).enqDesc1 = s.enqDesc1 := by
  unfold State.checksumEvent; split <;> rfl
@[simp] theorem State.checksumEvent_enqPayload (s : State) (r : List Byte) :
    (s.checksumEvent r).enqPayload = s.enqPayload := by
  unfold State.checksumEvent; split <;> rfl
@[simp] theorem State.checksumEvent_ctrl (s : State) (r : List Byte) :
    (s.checksumEvent r).ctrl = s.ctrl := by
  unfold State.checksumEvent; split <;> rfl
@[simp] theorem State.checksumEvent_result (s : State) (r : List Byte) :
    (s.checksumEvent r).result = s.result := by
  unfold State.checksumEvent; split <;> rfl
@[simp] theorem State.checksumEvent_counters (s : State) (r : List Byte) :
    (s.checksumEvent r).counters = if headOk r && !validate r then s.counters.bump .chkFail else s.counters := by
  unfold State.checksumEvent; split <;> rfl
@[simp] theorem State.checksumEvent_nowMs (s : State) (r : List Byte) :
    (s.checksumEvent r).nowMs = s.nowMs := by
  unfold State.checksumEvent; split <;> rfl
@[simp] theorem State.checksumEvent_maint (s : State) (r : List Byte) :
    (s.checksumEvent r).maint = s.maint := by
  unfold State.checksumEvent; split <;> rfl
@[simp] theorem State.checksumEvent_rdata (s : State) (r : List Byte) :
    (s.checksumEvent r).rdata = s.rdata := by
  unfold State.checksumEvent; split <;> rfl
@[simp] theorem State.checksumEvent_hostq (s : State) (r : List Byte) :
    (s.checksumEvent r).hostq = s.hostq := by
  unfold State.checksumEvent; split <;> rfl
@[simp] theorem State.checksumEvent_busq (s : State) (r : List Byte) :
    (s.checksumEvent r).busq = s.busq := by
  unfold State.checksumEvent; split <;> rfl
@[simp] theorem State.checksumEvent_sched (s : State) (r : List Byte) :
    (s.checksumEvent r).sched = s.sched := by
  unfold State.checksumEvent; split <;> rfl
@[simp] theorem State.checksumEvent_freeCtr (s : State) (r : List Byte) :
    (s.checksumEvent r).freeCtr = s.freeCtr := by
  unfold State.checksumEvent; split <;> rfl

/-! `State.pushRaw`: the record, or CNT_RAW_DROP (R181). -/

@[simp] theorem State.pushRaw_cfg (s : State) (r : List Byte) (k : Kind) (m : Bool) :
    (s.pushRaw r k m).cfg = s.cfg := by
  unfold State.pushRaw; split <;> rfl
@[simp] theorem State.pushRaw_eng (s : State) (r : List Byte) (k : Kind) (m : Bool) :
    (s.pushRaw r k m).eng = s.eng := by
  unfold State.pushRaw; split <;> rfl
@[simp] theorem State.pushRaw_rxbuf (s : State) (r : List Byte) (k : Kind) (m : Bool) :
    (s.pushRaw r k m).rxbuf = s.rxbuf := by
  unfold State.pushRaw; split <;> rfl
@[simp] theorem State.pushRaw_rxq (s : State) (r : List Byte) (k : Kind) (m : Bool) :
    (s.pushRaw r k m).rxq = s.rxq := by
  unfold State.pushRaw; split <;> rfl
@[simp] theorem State.pushRaw_txq (s : State) (r : List Byte) (k : Kind) (m : Bool) :
    (s.pushRaw r k m).txq = s.txq := by
  unfold State.pushRaw; split <;> rfl
@[simp] theorem State.pushRaw_txbuf (s : State) (r : List Byte) (k : Kind) (m : Bool) :
    (s.pushRaw r k m).txbuf = s.txbuf := by
  unfold State.pushRaw; split <;> rfl
@[simp] theorem State.pushRaw_txIdx (s : State) (r : List Byte) (k : Kind) (m : Bool) :
    (s.pushRaw r k m).txIdx = s.txIdx := by
  unfold State.pushRaw; split <;> rfl
@[simp] theorem State.pushRaw_dir (s : State) (r : List Byte) (k : Kind) (m : Bool) :
    (s.pushRaw r k m).dir = s.dir := by
  unfold State.pushRaw; split <;> rfl
@[simp] theorem State.pushRaw_txlog (s : State) (r : List Byte) (k : Kind) (m : Bool) :
    (s.pushRaw r k m).txlog = s.txlog := by
  unfold State.pushRaw; split <;> rfl
@[simp] theorem State.pushRaw_slots (s : State) (r : List Byte) (k : Kind) (m : Bool) :
    (s.pushRaw r k m).slots = s.slots := by
  unfold State.pushRaw; split <;> rfl
@[simp] theorem State.pushRaw_idCtr (s : State) (r : List Byte) (k : Kind) (m : Bool) :
    (s.pushRaw r k m).idCtr = s.idCtr := by
  unfold State.pushRaw; split <;> rfl
@[simp] theorem State.pushRaw_respq (s : State) (r : List Byte) (k : Kind) (m : Bool) :
    (s.pushRaw r k m).respq = s.respq := by
  unfold State.pushRaw; split <;> rfl
@[simp] theorem State.pushRaw_rawq (s : State) (r : List Byte) (k : Kind) (m : Bool) :
    (s.pushRaw r k m).rawq = if s.rawq.length = s.cfg.rawFifoDepth then s.rawq
      else s.rawq ++ [{ bytes := r, kind := k, chkOk := chkOk r, matched := m }] := by
  unfold State.pushRaw; split <;> rfl
@[simp] theorem State.pushRaw_enqDesc0 (s : State) (r : List Byte) (k : Kind) (m : Bool) :
    (s.pushRaw r k m).enqDesc0 = s.enqDesc0 := by
  unfold State.pushRaw; split <;> rfl
@[simp] theorem State.pushRaw_enqDesc1 (s : State) (r : List Byte) (k : Kind) (m : Bool) :
    (s.pushRaw r k m).enqDesc1 = s.enqDesc1 := by
  unfold State.pushRaw; split <;> rfl
@[simp] theorem State.pushRaw_enqPayload (s : State) (r : List Byte) (k : Kind) (m : Bool) :
    (s.pushRaw r k m).enqPayload = s.enqPayload := by
  unfold State.pushRaw; split <;> rfl
@[simp] theorem State.pushRaw_ctrl (s : State) (r : List Byte) (k : Kind) (m : Bool) :
    (s.pushRaw r k m).ctrl = s.ctrl := by
  unfold State.pushRaw; split <;> rfl
@[simp] theorem State.pushRaw_result (s : State) (r : List Byte) (k : Kind) (m : Bool) :
    (s.pushRaw r k m).result = s.result := by
  unfold State.pushRaw; split <;> rfl
@[simp] theorem State.pushRaw_counters (s : State) (r : List Byte) (k : Kind) (m : Bool) :
    (s.pushRaw r k m).counters = if s.rawq.length = s.cfg.rawFifoDepth then s.counters.bump .rawDrop else s.counters := by
  unfold State.pushRaw; split <;> rfl
@[simp] theorem State.pushRaw_nowMs (s : State) (r : List Byte) (k : Kind) (m : Bool) :
    (s.pushRaw r k m).nowMs = s.nowMs := by
  unfold State.pushRaw; split <;> rfl
@[simp] theorem State.pushRaw_maint (s : State) (r : List Byte) (k : Kind) (m : Bool) :
    (s.pushRaw r k m).maint = s.maint := by
  unfold State.pushRaw; split <;> rfl
@[simp] theorem State.pushRaw_rdata (s : State) (r : List Byte) (k : Kind) (m : Bool) :
    (s.pushRaw r k m).rdata = s.rdata := by
  unfold State.pushRaw; split <;> rfl
@[simp] theorem State.pushRaw_hostq (s : State) (r : List Byte) (k : Kind) (m : Bool) :
    (s.pushRaw r k m).hostq = s.hostq := by
  unfold State.pushRaw; split <;> rfl
@[simp] theorem State.pushRaw_busq (s : State) (r : List Byte) (k : Kind) (m : Bool) :
    (s.pushRaw r k m).busq = s.busq := by
  unfold State.pushRaw; split <;> rfl
@[simp] theorem State.pushRaw_sched (s : State) (r : List Byte) (k : Kind) (m : Bool) :
    (s.pushRaw r k m).sched = s.sched := by
  unfold State.pushRaw; split <;> rfl
@[simp] theorem State.pushRaw_freeCtr (s : State) (r : List Byte) (k : Kind) (m : Bool) :
    (s.pushRaw r k m).freeCtr = s.freeCtr := by
  unfold State.pushRaw; split <;> rfl

/-! `State.finishFrame`: `rawq`, `rxbuf` and counters (R176, R181, R182). -/

@[simp] theorem State.finishFrame_cfg (s : State) (k : Kind) (r : List Byte) (m : Bool) :
    (s.finishFrame k r m).cfg = s.cfg := by simp [State.finishFrame]
@[simp] theorem State.finishFrame_eng (s : State) (k : Kind) (r : List Byte) (m : Bool) :
    (s.finishFrame k r m).eng = s.eng := by simp [State.finishFrame]
@[simp] theorem State.finishFrame_rxbuf (s : State) (k : Kind) (r : List Byte) (m : Bool) :
    (s.finishFrame k r m).rxbuf = [] := rfl
@[simp] theorem State.finishFrame_rxq (s : State) (k : Kind) (r : List Byte) (m : Bool) :
    (s.finishFrame k r m).rxq = s.rxq := by simp [State.finishFrame]
@[simp] theorem State.finishFrame_txq (s : State) (k : Kind) (r : List Byte) (m : Bool) :
    (s.finishFrame k r m).txq = s.txq := by simp [State.finishFrame]
@[simp] theorem State.finishFrame_txbuf (s : State) (k : Kind) (r : List Byte) (m : Bool) :
    (s.finishFrame k r m).txbuf = s.txbuf := by simp [State.finishFrame]
@[simp] theorem State.finishFrame_txIdx (s : State) (k : Kind) (r : List Byte) (m : Bool) :
    (s.finishFrame k r m).txIdx = s.txIdx := by simp [State.finishFrame]
@[simp] theorem State.finishFrame_dir (s : State) (k : Kind) (r : List Byte) (m : Bool) :
    (s.finishFrame k r m).dir = s.dir := by simp [State.finishFrame]
@[simp] theorem State.finishFrame_txlog (s : State) (k : Kind) (r : List Byte) (m : Bool) :
    (s.finishFrame k r m).txlog = s.txlog := by simp [State.finishFrame]
@[simp] theorem State.finishFrame_slots (s : State) (k : Kind) (r : List Byte) (m : Bool) :
    (s.finishFrame k r m).slots = s.slots := by simp [State.finishFrame]
@[simp] theorem State.finishFrame_idCtr (s : State) (k : Kind) (r : List Byte) (m : Bool) :
    (s.finishFrame k r m).idCtr = s.idCtr := by simp [State.finishFrame]
@[simp] theorem State.finishFrame_respq (s : State) (k : Kind) (r : List Byte) (m : Bool) :
    (s.finishFrame k r m).respq = s.respq := by simp [State.finishFrame]
@[simp] theorem State.finishFrame_rawq (s : State) (k : Kind) (r : List Byte) (m : Bool) :
    (s.finishFrame k r m).rawq = if s.rawq.length = s.cfg.rawFifoDepth then s.rawq
      else s.rawq ++ [{ bytes := r, kind := k, chkOk := chkOk r, matched := m }] := by simp [State.finishFrame]
@[simp] theorem State.finishFrame_enqDesc0 (s : State) (k : Kind) (r : List Byte) (m : Bool) :
    (s.finishFrame k r m).enqDesc0 = s.enqDesc0 := by simp [State.finishFrame]
@[simp] theorem State.finishFrame_enqDesc1 (s : State) (k : Kind) (r : List Byte) (m : Bool) :
    (s.finishFrame k r m).enqDesc1 = s.enqDesc1 := by simp [State.finishFrame]
@[simp] theorem State.finishFrame_enqPayload (s : State) (k : Kind) (r : List Byte) (m : Bool) :
    (s.finishFrame k r m).enqPayload = s.enqPayload := by simp [State.finishFrame]
@[simp] theorem State.finishFrame_ctrl (s : State) (k : Kind) (r : List Byte) (m : Bool) :
    (s.finishFrame k r m).ctrl = s.ctrl := by simp [State.finishFrame]
@[simp] theorem State.finishFrame_result (s : State) (k : Kind) (r : List Byte) (m : Bool) :
    (s.finishFrame k r m).result = s.result := by simp [State.finishFrame]
@[simp] theorem State.finishFrame_counters (s : State) (k : Kind) (r : List Byte) (m : Bool) :
    (s.finishFrame k r m).counters = (((s.bump .frame).checksumEvent r).pushRaw r k m).counters := rfl
@[simp] theorem State.finishFrame_nowMs (s : State) (k : Kind) (r : List Byte) (m : Bool) :
    (s.finishFrame k r m).nowMs = s.nowMs := by simp [State.finishFrame]
@[simp] theorem State.finishFrame_maint (s : State) (k : Kind) (r : List Byte) (m : Bool) :
    (s.finishFrame k r m).maint = s.maint := by simp [State.finishFrame]
@[simp] theorem State.finishFrame_rdata (s : State) (k : Kind) (r : List Byte) (m : Bool) :
    (s.finishFrame k r m).rdata = s.rdata := by simp [State.finishFrame]
@[simp] theorem State.finishFrame_hostq (s : State) (k : Kind) (r : List Byte) (m : Bool) :
    (s.finishFrame k r m).hostq = s.hostq := by simp [State.finishFrame]
@[simp] theorem State.finishFrame_busq (s : State) (k : Kind) (r : List Byte) (m : Bool) :
    (s.finishFrame k r m).busq = s.busq := by simp [State.finishFrame]
@[simp] theorem State.finishFrame_sched (s : State) (k : Kind) (r : List Byte) (m : Bool) :
    (s.finishFrame k r m).sched = s.sched := by simp [State.finishFrame]
@[simp] theorem State.finishFrame_freeCtr (s : State) (k : Kind) (r : List Byte) (m : Bool) :
    (s.finishFrame k r m).freeCtr = s.freeCtr := by simp [State.finishFrame]

/-! `State.selectAndMark` (R251-R253). -/

@[simp] theorem State.selectAndMark_cfg (s : State) (i : Nat) (e : Entry) (fnr : Byte) :
    (s.selectAndMark i e fnr).cfg = s.cfg := rfl
@[simp] theorem State.selectAndMark_eng (s : State) (i : Nat) (e : Entry) (fnr : Byte) :
    (s.selectAndMark i e fnr).eng = .tx := rfl
@[simp] theorem State.selectAndMark_rxbuf (s : State) (i : Nat) (e : Entry) (fnr : Byte) :
    (s.selectAndMark i e fnr).rxbuf = s.rxbuf := rfl
@[simp] theorem State.selectAndMark_rxq (s : State) (i : Nat) (e : Entry) (fnr : Byte) :
    (s.selectAndMark i e fnr).rxq = s.rxq := rfl
@[simp] theorem State.selectAndMark_txq (s : State) (i : Nat) (e : Entry) (fnr : Byte) :
    (s.selectAndMark i e fnr).txq = s.txq := rfl
@[simp] theorem State.selectAndMark_txbuf (s : State) (i : Nat) (e : Entry) (fnr : Byte) :
    (s.selectAndMark i e fnr).txbuf = buildFrame ((fnr + 1#8) &&& 0x7F#8) e.payload := rfl
@[simp] theorem State.selectAndMark_txIdx (s : State) (i : Nat) (e : Entry) (fnr : Byte) :
    (s.selectAndMark i e fnr).txIdx = 0 := rfl
@[simp] theorem State.selectAndMark_dir (s : State) (i : Nat) (e : Entry) (fnr : Byte) :
    (s.selectAndMark i e fnr).dir = true := rfl
@[simp] theorem State.selectAndMark_txlog (s : State) (i : Nat) (e : Entry) (fnr : Byte) :
    (s.selectAndMark i e fnr).txlog = s.txlog := rfl
@[simp] theorem State.selectAndMark_slots (s : State) (i : Nat) (e : Entry) (fnr : Byte) :
    (s.selectAndMark i e fnr).slots = s.markSent i e := rfl
@[simp] theorem State.selectAndMark_idCtr (s : State) (i : Nat) (e : Entry) (fnr : Byte) :
    (s.selectAndMark i e fnr).idCtr = s.idCtr := rfl
@[simp] theorem State.selectAndMark_respq (s : State) (i : Nat) (e : Entry) (fnr : Byte) :
    (s.selectAndMark i e fnr).respq = s.respq := rfl
@[simp] theorem State.selectAndMark_rawq (s : State) (i : Nat) (e : Entry) (fnr : Byte) :
    (s.selectAndMark i e fnr).rawq = s.rawq := rfl
@[simp] theorem State.selectAndMark_enqDesc0 (s : State) (i : Nat) (e : Entry) (fnr : Byte) :
    (s.selectAndMark i e fnr).enqDesc0 = s.enqDesc0 := rfl
@[simp] theorem State.selectAndMark_enqDesc1 (s : State) (i : Nat) (e : Entry) (fnr : Byte) :
    (s.selectAndMark i e fnr).enqDesc1 = s.enqDesc1 := rfl
@[simp] theorem State.selectAndMark_enqPayload (s : State) (i : Nat) (e : Entry) (fnr : Byte) :
    (s.selectAndMark i e fnr).enqPayload = s.enqPayload := rfl
@[simp] theorem State.selectAndMark_ctrl (s : State) (i : Nat) (e : Entry) (fnr : Byte) :
    (s.selectAndMark i e fnr).ctrl = s.ctrl := rfl
@[simp] theorem State.selectAndMark_result (s : State) (i : Nat) (e : Entry) (fnr : Byte) :
    (s.selectAndMark i e fnr).result = s.result := rfl
@[simp] theorem State.selectAndMark_counters (s : State) (i : Nat) (e : Entry) (fnr : Byte) :
    (s.selectAndMark i e fnr).counters = s.counters.bump .tx := rfl
@[simp] theorem State.selectAndMark_nowMs (s : State) (i : Nat) (e : Entry) (fnr : Byte) :
    (s.selectAndMark i e fnr).nowMs = s.nowMs := rfl
@[simp] theorem State.selectAndMark_maint (s : State) (i : Nat) (e : Entry) (fnr : Byte) :
    (s.selectAndMark i e fnr).maint = s.maint := rfl
@[simp] theorem State.selectAndMark_rdata (s : State) (i : Nat) (e : Entry) (fnr : Byte) :
    (s.selectAndMark i e fnr).rdata = s.rdata := rfl
@[simp] theorem State.selectAndMark_hostq (s : State) (i : Nat) (e : Entry) (fnr : Byte) :
    (s.selectAndMark i e fnr).hostq = s.hostq := rfl
@[simp] theorem State.selectAndMark_busq (s : State) (i : Nat) (e : Entry) (fnr : Byte) :
    (s.selectAndMark i e fnr).busq = s.busq := rfl
@[simp] theorem State.selectAndMark_sched (s : State) (i : Nat) (e : Entry) (fnr : Byte) :
    (s.selectAndMark i e fnr).sched = s.sched := rfl
@[simp] theorem State.selectAndMark_freeCtr (s : State) (i : Nat) (e : Entry) (fnr : Byte) :
    (s.selectAndMark i e fnr).freeCtr = s.freeCtr := rfl

/-! `State.clockStep` (R42). -/

@[simp] theorem State.clockStep_cfg (s : State) : (s.clockStep).cfg = s.cfg := rfl
@[simp] theorem State.clockStep_eng (s : State) : (s.clockStep).eng = s.eng := rfl
@[simp] theorem State.clockStep_rxbuf (s : State) : (s.clockStep).rxbuf = s.rxbuf := rfl
@[simp] theorem State.clockStep_rxq (s : State) : (s.clockStep).rxq = s.rxq := rfl
@[simp] theorem State.clockStep_txq (s : State) : (s.clockStep).txq = s.txq := rfl
@[simp] theorem State.clockStep_txbuf (s : State) : (s.clockStep).txbuf = s.txbuf := rfl
@[simp] theorem State.clockStep_txIdx (s : State) : (s.clockStep).txIdx = s.txIdx := rfl
@[simp] theorem State.clockStep_dir (s : State) : (s.clockStep).dir = s.dir := rfl
@[simp] theorem State.clockStep_txlog (s : State) : (s.clockStep).txlog = s.txlog := rfl
@[simp] theorem State.clockStep_slots (s : State) : (s.clockStep).slots = s.slots := rfl
@[simp] theorem State.clockStep_idCtr (s : State) : (s.clockStep).idCtr = s.idCtr := rfl
@[simp] theorem State.clockStep_respq (s : State) : (s.clockStep).respq = s.respq := rfl
@[simp] theorem State.clockStep_rawq (s : State) : (s.clockStep).rawq = s.rawq := rfl
@[simp] theorem State.clockStep_enqDesc0 (s : State) : (s.clockStep).enqDesc0 = s.enqDesc0 := rfl
@[simp] theorem State.clockStep_enqDesc1 (s : State) : (s.clockStep).enqDesc1 = s.enqDesc1 := rfl
@[simp] theorem State.clockStep_enqPayload (s : State) : (s.clockStep).enqPayload = s.enqPayload := rfl
@[simp] theorem State.clockStep_ctrl (s : State) : (s.clockStep).ctrl = s.ctrl := rfl
@[simp] theorem State.clockStep_result (s : State) : (s.clockStep).result = s.result := rfl
@[simp] theorem State.clockStep_counters (s : State) : (s.clockStep).counters = s.counters := rfl
@[simp] theorem State.clockStep_nowMs (s : State) : (s.clockStep).nowMs = s.nowMs + 1#32 := rfl
@[simp] theorem State.clockStep_maint (s : State) : (s.clockStep).maint = s.maint := rfl
@[simp] theorem State.clockStep_rdata (s : State) : (s.clockStep).rdata = s.rdata := rfl
@[simp] theorem State.clockStep_hostq (s : State) : (s.clockStep).hostq = s.hostq := rfl
@[simp] theorem State.clockStep_busq (s : State) : (s.clockStep).busq = s.busq := rfl
@[simp] theorem State.clockStep_sched (s : State) : (s.clockStep).sched = s.sched := rfl
@[simp] theorem State.clockStep_freeCtr (s : State) : (s.clockStep).freeCtr = s.freeCtr := rfl

/-! `State.rxbufOverflow` (R174). -/

@[simp] theorem State.rxbufOverflow_cfg (s : State) : (s.rxbufOverflow).cfg = s.cfg := rfl
@[simp] theorem State.rxbufOverflow_eng (s : State) : (s.rxbufOverflow).eng = s.eng := rfl
@[simp] theorem State.rxbufOverflow_rxbuf (s : State) : (s.rxbufOverflow).rxbuf = [] := rfl
@[simp] theorem State.rxbufOverflow_rxq (s : State) : (s.rxbufOverflow).rxq = s.rxq := rfl
@[simp] theorem State.rxbufOverflow_txq (s : State) : (s.rxbufOverflow).txq = s.txq := rfl
@[simp] theorem State.rxbufOverflow_txbuf (s : State) : (s.rxbufOverflow).txbuf = s.txbuf := rfl
@[simp] theorem State.rxbufOverflow_txIdx (s : State) : (s.rxbufOverflow).txIdx = s.txIdx := rfl
@[simp] theorem State.rxbufOverflow_dir (s : State) : (s.rxbufOverflow).dir = s.dir := rfl
@[simp] theorem State.rxbufOverflow_txlog (s : State) : (s.rxbufOverflow).txlog = s.txlog := rfl
@[simp] theorem State.rxbufOverflow_slots (s : State) : (s.rxbufOverflow).slots = s.slots := rfl
@[simp] theorem State.rxbufOverflow_idCtr (s : State) : (s.rxbufOverflow).idCtr = s.idCtr := rfl
@[simp] theorem State.rxbufOverflow_respq (s : State) : (s.rxbufOverflow).respq = s.respq := rfl
@[simp] theorem State.rxbufOverflow_rawq (s : State) : (s.rxbufOverflow).rawq = s.rawq := rfl
@[simp] theorem State.rxbufOverflow_enqDesc0 (s : State) : (s.rxbufOverflow).enqDesc0 = s.enqDesc0 := rfl
@[simp] theorem State.rxbufOverflow_enqDesc1 (s : State) : (s.rxbufOverflow).enqDesc1 = s.enqDesc1 := rfl
@[simp] theorem State.rxbufOverflow_enqPayload (s : State) : (s.rxbufOverflow).enqPayload = s.enqPayload := rfl
@[simp] theorem State.rxbufOverflow_ctrl (s : State) : (s.rxbufOverflow).ctrl = s.ctrl := rfl
@[simp] theorem State.rxbufOverflow_result (s : State) : (s.rxbufOverflow).result = s.result := rfl
@[simp] theorem State.rxbufOverflow_counters (s : State) :
    (s.rxbufOverflow).counters = s.counters.bump .rxbufOvf := rfl
@[simp] theorem State.rxbufOverflow_nowMs (s : State) : (s.rxbufOverflow).nowMs = s.nowMs := rfl
@[simp] theorem State.rxbufOverflow_maint (s : State) : (s.rxbufOverflow).maint = s.maint := rfl
@[simp] theorem State.rxbufOverflow_rdata (s : State) : (s.rxbufOverflow).rdata = s.rdata := rfl
@[simp] theorem State.rxbufOverflow_hostq (s : State) : (s.rxbufOverflow).hostq = s.hostq := rfl
@[simp] theorem State.rxbufOverflow_busq (s : State) : (s.rxbufOverflow).busq = s.busq := rfl
@[simp] theorem State.rxbufOverflow_sched (s : State) : (s.rxbufOverflow).sched = s.sched := rfl
@[simp] theorem State.rxbufOverflow_freeCtr (s : State) : (s.rxbufOverflow).freeCtr = s.freeCtr := rfl

end Sys2Proof.Machine
end

