-- ==== Sys2Proof/Laws/Registry.lean ====
section
/-! SUPPORT. The laws of the registry's operations: each says once what the operation can do. -/

namespace Sys2Proof.Machine

/-! `remove` (R222). -/

theorem swapRemove_concat (l : List Entry) (x : Entry) (i : Nat) :
    swapRemove (l ++ [x]) i = if i < l.length then l.set i x else l := by
  by_cases h : i < l.length
  · simp [swapRemove, h]
  · simp only [swapRemove, List.getLast?_concat, List.set_append, h, if_false]
    rcases Nat.eq_zero_or_pos (i - l.length) with h0 | h0
    · simp [h0]
    · obtain ⟨k, hk⟩ : ∃ k, i - l.length = k + 1 := ⟨i - l.length - 1, by omega⟩
      simp [hk]

theorem swapRemove_length (l : List Entry) (i : Nat) : (swapRemove l i).length = l.length - 1 := by
  cases h : l.getLast? <;> simp_all [swapRemove]

/-- Up to order, `remove` takes away exactly the entry at its index. -/
theorem swapRemove_perm {l : List Entry} {i : Nat} (h : i < l.length) :
    (swapRemove l i).Perm (l.eraseIdx i) := by
  obtain ⟨m, x, rfl⟩ : ∃ m x, l = m ++ [x] :=
    ⟨l.dropLast, l.getLast (by rintro rfl; simp at h), (List.dropLast_append_getLast _).symm⟩
  rw [swapRemove_concat]
  split
  case isTrue hi =>
    rw [List.eraseIdx_append_of_lt_length hi]
    have h1 : m.set i x = m.take i ++ x :: m.drop (i + 1) := List.set_eq_take_append_cons_drop ▸ by simp [hi]
    rw [h1, List.eraseIdx_eq_take_drop_succ, List.append_assoc]
    exact List.Perm.append_left _ (List.perm_append_singleton x _).symm
  case isFalse hi =>
    have : i = m.length := by simp at h; omega
    subst this
    simp [List.eraseIdx_append_of_length_le (Nat.le_refl _)]

theorem mem_of_mem_swapRemove {l : List Entry} {i : Nat} {e : Entry} (h : e ∈ swapRemove l i) : e ∈ l := by
  rcases l.eq_nil_or_concat with rfl | ⟨m, x, rfl⟩
  · simp [swapRemove] at h
  · rw [List.concat_eq_append, swapRemove_concat] at h
    rw [List.concat_eq_append]
    split at h
    · rcases List.mem_or_eq_of_mem_set h with h | rfl <;> simp_all
    · simp [h]

/-! Ids (R211-R213). -/

theorem State.inUse_eq_true (s : State) (c : Byte) : s.inUse c = true ↔ ∃ e ∈ s.slots, e.id = c := by
  simp [State.inUse]

theorem idCandidate_ge (ctr : Byte) (k : Nat) : 0x80#8 ≤ idCandidate ctr k := by
  unfold idCandidate
  generalize ctr + BitVec.ofNat 8 k = x
  revert x; decide

theorem idAfter_ge (c : Byte) : 0x80#8 ≤ idAfter c := by revert c; decide

/-- `allocate_id` gives the first candidate that no slot holds (R212). -/
theorem State.allocateId_eq_some {s : State} {id : Byte} (h : s.allocateId = some id) :
    0x80#8 ≤ id ∧ (∀ e ∈ s.slots, e.id ≠ id) ∧ ∃ k, k < 127 ∧ id = idCandidate s.idCtr k := by
  unfold State.allocateId at h
  have h1 := List.find?_some h
  have h2 := List.mem_of_find?_eq_some h
  simp only [List.mem_map, List.mem_range] at h2
  obtain ⟨k, hk, rfl⟩ := h2
  refine ⟨idCandidate_ge _ _, fun e he hid => ?_, k, hk, rfl⟩
  simp [State.inUse] at h1
  exact h1 e he hid

/-- `allocate_id` fails exactly when all 127 candidates are in use (R212). -/
theorem State.allocateId_eq_none (s : State) :
    s.allocateId = none ↔ ∀ k, k < 127 → ∃ e ∈ s.slots, e.id = idCandidate s.idCtr k := by
  simp [State.allocateId, State.inUse]

/-! ENQUEUE (R214, R282). -/

/-- Everything ENQUEUE can do once it has an id: replace the entry of the coalesce target, append one, or spend the id. -/
theorem State.enqueueAs_cases (s : State) (c : Bool) (id : Byte) :
    (∃ i, c = true ∧ s.coalesceTarget = some i ∧ s.enqueueAs c id =
      { s with idCtr := idAfter id, slots := s.slots.set i (s.newEntry id), result := resultEnqueued id true }) ∨
    ((c = true → s.coalesceTarget = none) ∧ s.slots.length < s.cfg.fifoSize ∧ s.enqueueAs c id =
      { s with idCtr := idAfter id, slots := s.slots ++ [s.newEntry id], result := resultEnqueued id false }) ∨
    ((c = true → s.coalesceTarget = none) ∧ s.cfg.fifoSize ≤ s.slots.length ∧ s.enqueueAs c id =
      { s with idCtr := idAfter id, result := resultOf .fifoFull }) := by
  unfold State.enqueueAs
  cases c
  · by_cases h : s.slots.length < s.cfg.fifoSize
    · simp [h]
    · simp [h, State.raise, Event.counter, Event.result, State.setResult]; omega
  · cases ht : s.coalesceTarget
    · by_cases h : s.slots.length < s.cfg.fifoSize
      · simp [h]
      · simp [h, State.raise, Event.counter, Event.result, State.setResult]; omega
    · simp

/-- Everything the ENQUEUE command can do (R324): refuse the length, find no id, or go on with an id. -/
theorem State.enqueueCommand_cases (s : State) (c : Bool) :
    (s.badLength = true ∧ s.enqueueCommand c = { s with result := resultOf .badLength }) ∨
    (s.badLength = false ∧ s.allocateId = none ∧ s.enqueueCommand c = { s with result := resultOf .idExhausted }) ∨
    ∃ id, s.badLength = false ∧ s.allocateId = some id ∧ s.enqueueCommand c = s.enqueueAs c id := by
  unfold State.enqueueCommand
  cases h : s.badLength
  · cases ha : s.allocateId <;>
      simp [State.raise, Event.counter, Event.result, State.setResult]
  · simp [State.raise, Event.counter, Event.result, State.setResult]

/-- What any ENQUEUE leaves: `id_ctr`, `slots` and RESULT may change, nothing else. -/
theorem State.enqueueCommand_frame (s : State) (c : Bool) :
    s.enqueueCommand c = { s with
      idCtr := (s.enqueueCommand c).idCtr
      slots := (s.enqueueCommand c).slots
      result := (s.enqueueCommand c).result } := by
  rcases s.enqueueCommand_cases c with ⟨-, h⟩ | ⟨-, -, h⟩ | ⟨id, -, -, h⟩
  · simp [h]
  · simp [h]
  · rcases s.enqueueAs_cases c id with ⟨i, -, -, h'⟩ | ⟨-, -, h'⟩ | ⟨-, -, h'⟩ <;> simp [h, h']

/-- An entry after an ENQUEUE was there before, or is the new one under a fresh id. -/
theorem State.mem_enqueueCommand {s : State} {c : Bool} {e : Entry} (h : e ∈ (s.enqueueCommand c).slots) :
    e ∈ s.slots ∨ ∃ id, s.badLength = false ∧ s.allocateId = some id ∧ e = s.newEntry id := by
  rcases s.enqueueCommand_cases c with ⟨-, h'⟩ | ⟨-, -, h'⟩ | ⟨id, hl, ha, h'⟩
  · simp_all
  · simp_all
  · rcases s.enqueueAs_cases c id with ⟨i, -, -, h''⟩ | ⟨-, -, h''⟩ | ⟨-, -, h''⟩ <;> rw [h', h''] at h
    · rcases List.mem_or_eq_of_mem_set h with h | rfl
      · exact .inl h
      · exact .inr ⟨id, hl, ha, rfl⟩
    · rcases List.mem_append.1 h with h | h
      · exact .inl h
      · exact .inr ⟨id, hl, ha, by simpa using h⟩
    · exact .inl h

/-! Responses (R218). -/

/-- Everything `match_response` can do: store the frame in the first entry that takes it, or count it unmatched. -/
theorem State.matchResponse_cases (s : State) (d : List Byte) :
    (∃ i, s.slots.findIdx? (takesResponse d) = some i ∧
      s.matchResponse d = (true, { s with slots := s.slots.modify i fun e => { e with resp := d } })) ∨
    (s.slots.findIdx? (takesResponse d) = none ∧ s.matchResponse d = (false, s.bump .unmatched)) := by
  unfold State.matchResponse
  cases s.slots.findIdx? (takesResponse d) <;> simp [State.raise, Event.counter]

/-! Retries (R219). -/

/-- Everything `retry_or_drop` can do: drop the entry at the bound, or retry it below. -/
theorem State.retryOrDrop_cases (s : State) (i : Nat) (e : Entry) (cause : RetryCause) :
    (s.cfg.maxResend ≤ e.resend.toNat ∧ s.retryOrDrop i e cause =
      (false, { s with slots := swapRemove s.slots i, counters := s.counters.bump .drop })) ∨
    (e.resend.toNat < s.cfg.maxResend ∧ ∃ c, cause.event.counter = some c ∧ s.retryOrDrop i e cause =
      (true, { s with slots := s.slots.set i (e.retried s.nowMs), counters := s.counters.bump c })) := by
  unfold State.retryOrDrop
  split
  case isTrue h => exact .inl ⟨h, rfl⟩
  case isFalse h => exact .inr ⟨by omega, by cases cause <;> exact ⟨_, rfl, rfl⟩⟩

/-! EXPIRE (R221) and HARVEST (R220): what a scan leaves. -/

/-- A relation between the states before and after a scan that every turn keeps holds of the whole scan. -/
theorem State.expireFrom_induct (P : State → Prop)
    (step : ∀ (s : State) (i : Nat) (e : Entry), P s → s.slots[i]? = some e → s.timedOut e = true →
      P (s.retryOrDrop i e .timeout).2) :
    ∀ (fuel i n : Nat) (s : State), P s → P (State.expireFrom fuel i n s).2 := by
  intro fuel
  induction fuel with
  | zero => intro i n s h; exact h
  | succ fuel ih =>
    intro i n s h
    unfold State.expireFrom
    split
    · exact h
    next e he =>
      split
      next ht =>
        have hs := step s i e h he ht
        split <;> next heq => rw [heq] at hs; exact ih _ _ _ hs
      · exact ih _ _ _ h

/-- The same for a harvest, whose turns stall, emit, or retry and drop. -/
theorem State.harvestFrom_induct (P : State → Prop)
    (stall : ∀ s : State, P s → P (s.bump .respStall))
    (emit : ∀ (s : State) (i : Nat) (e : Entry), P s → s.slots[i]? = some e → e.answered = true →
      s.respq.length ≠ s.cfg.respFifoDepth → P (State.remove { s with respq := s.respq ++ [e.respRec] } i))
    (retry : ∀ (s : State) (i : Nat) (e : Entry), P s → s.slots[i]? = some e → e.resp ≠ [] → e.answered = false →
      P (s.retryOrDrop i e .mismatch).2) :
    ∀ (fuel i n : Nat) (s : State), P s → P (State.harvestFrom fuel i n s).2 := by
  intro fuel
  induction fuel with
  | zero => intro i n s h; exact h
  | succ fuel ih =>
    intro i n s h
    unfold State.harvestFrom
    split
    · exact h
    next e he =>
      split
      · exact ih _ _ _ h
      next hr =>
        split
        next ha =>
          split
          · exact ih _ _ _ (stall s h)
          next hq => exact ih _ _ _ (emit s i e h he ha hq)
        next ha =>
          have hs := retry s i e h he hr (by simpa using ha)
          split <;> next heq => rw [heq] at hs; exact ih _ _ _ hs

/-- EXPIRE changes `slots` and the counters, nothing else. -/
theorem State.expire_frame (s : State) :
    s.expire.2 = { s with slots := s.expire.2.slots, counters := s.expire.2.counters } := by
  refine State.expireFrom_induct (fun t => t = { s with slots := t.slots, counters := t.counters }) ?_ _ _ _ s rfl
  intro t i e ht _ _
  rcases t.retryOrDrop_cases i e .timeout with ⟨-, h⟩ | ⟨-, c, -, h⟩ <;> rw [h] <;> simp only <;> rw [ht]

/-- HARVEST changes `slots`, `respq` and the counters, nothing else. -/
theorem State.harvest_frame (s : State) :
    s.harvest.2 = { s with
      slots := s.harvest.2.slots
      respq := s.harvest.2.respq
      counters := s.harvest.2.counters } := by
  refine State.harvestFrom_induct
    (fun t => t = { s with slots := t.slots, respq := t.respq, counters := t.counters }) ?_ ?_ ?_ _ _ _ s rfl
  · intro t ht; simp only [State.bump]; rw [ht]
  · intro t i e ht _ _ _; simp only [State.remove]; rw [ht]
  · intro t i e ht _ _ _
    rcases t.retryOrDrop_cases i e .mismatch with ⟨-, h⟩ | ⟨-, c, -, h⟩ <;> rw [h] <;> simp only <;> rw [ht]

/-! The arbiter (R250-R253). -/

/-- Everything the arbiter can do: nothing without an unsent entry, or release the first one. -/
theorem State.arbitrate_cases (s : State) (fnr : Byte) :
    (s.firstUnsent = none ∧ s.arbitrate fnr = s) ∨
    ∃ i e, s.firstUnsent = some i ∧ s.slots[i]? = some e ∧ s.arbitrate fnr = s.selectAndMark i e fnr := by
  unfold State.arbitrate
  cases h : s.firstUnsent with
  | none => simp
  | some i =>
    obtain ⟨hi, -⟩ := List.findIdx?_eq_some_iff_getElem.1 h
    exact .inr ⟨i, s.slots[i], rfl, by simp [hi], by simp [hi]⟩

end Sys2Proof.Machine
end

