-- ==== Sys2Proof/Laws/Scans.lean ====
section
/-! SUPPORT. The laws of a scan of the registry (R222, R223), seen as a list already examined before one still to examine. -/

namespace Sys2Proof.Machine

@[simp] theorem lastToFront_nil : lastToFront [] = [] := rfl

@[simp] theorem lastToFront_concat (l : List Entry) (e : Entry) : lastToFront (l ++ [e]) = e :: l := by
  simp [lastToFront]

@[simp] theorem lastToFront_length (l : List Entry) : (lastToFront l).length = l.length := by
  rcases l.eq_nil_or_concat with rfl | ⟨m, x, rfl⟩ <;> simp

/-- The entries still to examine are the same, whichever comes first. -/
theorem lastToFront_perm (l : List Entry) : (lastToFront l).Perm l := by
  rcases l.eq_nil_or_concat with rfl | ⟨m, x, rfl⟩
  · simp
  · simpa using (List.perm_append_singleton x m).symm

/-- The entry a scan is at. -/
theorem getElem?_scan (seen : List Entry) (e : Entry) (l : List Entry) : (seen ++ e :: l)[seen.length]? = some e := by
  simp

/-- A retry writes in the place of the entry the scan is at. -/
theorem set_scan (seen : List Entry) (e e' : Entry) (l : List Entry) :
    (seen ++ e :: l).set seen.length e' = (seen ++ [e']) ++ l := by simp

/-- A removal of the entry a scan is at brings the last one to its place. -/
theorem swapRemove_scan (seen : List Entry) (e : Entry) (l : List Entry) :
    swapRemove (seen ++ e :: l) seen.length = seen ++ lastToFront l := by
  rcases l.eq_nil_or_concat with rfl | ⟨m, x, rfl⟩
  · rw [swapRemove_concat]; simp
  · rw [List.concat_eq_append, ← List.cons_append, ← List.append_assoc, swapRemove_concat]
    simp

end Sys2Proof.Machine
end

