-- ==== Sys2Proof/Laws/Steps.lean ====
section
/-! SUPPORT. What one step can do, said once: the effects of a command, of a completed frame, and of every agent's step.
Every statement about all steps goes by cases on these. -/

namespace Sys2Proof.Machine

/-! Frame processing (R176, R181). -/

/-- A completed frame: `rawq`, `rxbuf` and the counters change, nothing else. -/
theorem State.finishFrame_frame (s : State) (k : Kind) (r : List Byte) (m : Bool) :
    s.finishFrame k r m = { s with
      rxbuf := []
      rawq := (s.finishFrame k r m).rawq
      counters := (s.finishFrame k r m).counters } := by
  unfold State.finishFrame State.checksumEvent State.pushRaw
  repeat' split
  all_goals rfl

/-- The matching of a response changes `slots` and the counters, nothing else. -/
theorem State.matchResponse_frame (s : State) (d : List Byte) :
    (s.matchResponse d).2 = { s with
      slots := (s.matchResponse d).2.slots
      counters := (s.matchResponse d).2.counters } := by
  rcases s.matchResponse_cases d with ⟨i, -, h⟩ | ⟨-, h⟩
  · rw [h]
  · rw [h]; rfl

/-- The arbiter changes the transmission, the registry, DIR, the ENGINE's state and the counters, nothing else. -/
theorem State.arbitrate_frame (s : State) (fnr : Byte) :
    s.arbitrate fnr = { s with
      eng := (s.arbitrate fnr).eng
      txbuf := (s.arbitrate fnr).txbuf
      txIdx := (s.arbitrate fnr).txIdx
      dir := (s.arbitrate fnr).dir
      slots := (s.arbitrate fnr).slots
      counters := (s.arbitrate fnr).counters } := by
  rcases s.arbitrate_cases fnr with ⟨-, h⟩ | ⟨i, e, -, -, h⟩ <;> rw [h]
  rfl

/-! Requests (R123). -/

theorem State.hostWrite_frame (s : State) (addr w : Word) :
    s.hostWrite addr w = { s with
      ctrl := (s.hostWrite addr w).ctrl
      enqDesc0 := (s.hostWrite addr w).enqDesc0
      enqDesc1 := (s.hostWrite addr w).enqDesc1
      enqPayload := (s.hostWrite addr w).enqPayload } := by
  unfold State.hostWrite State.writeReg
  split
  · cases regAt addr <;> rfl
  · rfl

/-- The staging writes change CTRL and the staging registers at most. -/
theorem State.stage_frame (s : State) (q : Request) :
    s.stage q = { s with
      ctrl := (s.stage q).ctrl
      enqDesc0 := (s.stage q).enqDesc0
      enqDesc1 := (s.stage q).enqDesc1
      enqPayload := (s.stage q).enqPayload } := by
  unfold State.stage
  generalize requestWrites q = l
  induction l generalizing s with
  | nil => rfl
  | cons p l ih =>
    simp only [List.foldl_cons]
    rw [ih, s.hostWrite_frame]

/-- A request changes CTRL, the staging registers, `id_ctr`, `slots` and RESULT at most. -/
theorem State.runRequest_frame (s : State) (q : Request) :
    s.runRequest q = { s with
      ctrl := (s.runRequest q).ctrl
      enqDesc0 := (s.runRequest q).enqDesc0
      enqDesc1 := (s.runRequest q).enqDesc1
      enqPayload := (s.runRequest q).enqPayload
      idCtr := (s.runRequest q).idCtr
      slots := (s.runRequest q).slots
      result := (s.runRequest q).result } := by
  unfold State.runRequest
  rw [State.enqueueCommand_frame, s.stage_frame]

/-- Every payload command is the request its encoding carries (R123, log 8). -/
theorem exec_of_encode_request {i : Instr} {q : Request} (h : encode i = .request q) (s : State) :
    exec i s = .next (s.runRequest q) := by
  cases i <;> simp [encode] at h <;> subst h <;> rfl

/-! Commands (R281-R289). -/

/-- What a command can leave. -/
inductive CmdEffect (s : State) : State → Prop where
  | result (w : Word) : CmdEffect s (s.setResult w)
  | clear : CmdEffect s { s with counters := Counters.zero, result := resultOf .ok }
  | enqueue (c : Bool) : CmdEffect s (s.enqueueCommand c)
  | expire (w : Word) : CmdEffect s (s.expire.2.setResult w)
  | maintain : CmdEffect s { s.expire.2 with maint := true }
  | harvest (w : Word) : CmdEffect s (s.harvest.2.setResult w)
  | popResp (e : RespRec) (q : List RespRec) (h : s.respq = e :: q) :
    CmdEffect s { s with respq := q, result := resultOf .ok }
  | popRaw (f : RawRec) (q : List RawRec) (h : s.rawq = f :: q) :
    CmdEffect s { s with rawq := q, result := resultOf .ok }

/-- What no command changes. -/
theorem CmdEffect.frame {s t : State} (h : CmdEffect s t) :
    t = { s with
      slots := t.slots
      idCtr := t.idCtr
      respq := t.respq
      rawq := t.rawq
      result := t.result
      counters := t.counters
      maint := t.maint } := by
  cases h with
  | enqueue c => rw [s.enqueueCommand_frame c]
  | expire w => unfold State.setResult; rw [s.expire_frame]
  | maintain => rw [s.expire_frame]
  | harvest w => unfold State.setResult; rw [s.harvest_frame]
  | _ => rfl

/-- A command answers a next state, and its effect is one of the list. -/
theorem exec_command {i : Instr} (h : i.isCommand = true) (s : State) :
    ∃ t, exec i s = .next t ∧ CmdEffect s t := by
  cases i <;> simp [Instr.isCommand] at h
  case nop => exact ⟨_, rfl, .result _⟩
  case enqueue => exact ⟨_, rfl, .enqueue _⟩
  case enqueueC => exact ⟨_, rfl, .enqueue _⟩
  case expire => exact ⟨_, rfl, .expire _⟩
  case harvest => exact ⟨_, rfl, .harvest _⟩
  case maintain => exact ⟨_, rfl, .maintain⟩
  case popResp =>
    cases hq : s.respq with
    | nil => exact ⟨s.raise .empty, by simp [exec, execPopResp, hq], .result _⟩
    | cons e q => exact ⟨_, by simp [exec, execPopResp, hq], .popResp e q hq⟩
  case popRaw =>
    cases hq : s.rawq with
    | nil => exact ⟨s.raise .empty, by simp [exec, execPopRaw, hq], .result _⟩
    | cons e q => exact ⟨_, by simp [exec, execPopRaw, hq], .popRaw e q hq⟩
  case clrCounters => exact ⟨_, rfl, .clear⟩
  case reserved => exact ⟨_, rfl, .result _⟩

/-! Frames (R190-R202). -/

/-- What a completed frame `r` can leave. -/
inductive FrameEffect (r : List Byte) (s : State) : State → Prop where
  | record (k : Kind) : FrameEffect r s (s.finishFrame k r false)
  | discard (k : Kind) (c : Counter) : FrameEffect r s ((s.finishFrame k r false).bump c)
  | sync (fnr : Byte) : FrameEffect r s (((s.finishFrame .sync r false).bump .sync).arbitrate fnr)
  | response (h : 8 ≤ (destuff r).length) :
    FrameEffect r s ((s.matchResponse (destuff r)).2.finishFrame .response r (s.matchResponse (destuff r)).1)

/-- What no completed frame changes. -/
theorem FrameEffect.frame {r : List Byte} {s t : State} (h : FrameEffect r s t) :
    t = { s with
      eng := t.eng
      rxbuf := []
      txbuf := t.txbuf
      txIdx := t.txIdx
      dir := t.dir
      slots := t.slots
      rawq := t.rawq
      counters := t.counters } := by
  cases h with
  | record k => rw [s.finishFrame_frame]
  | discard k c => unfold State.bump; rw [s.finishFrame_frame]
  | sync fnr => rw [State.arbitrate_frame]; unfold State.bump; rw [s.finishFrame_frame]
  | response h => rw [State.finishFrame_frame, s.matchResponse_frame]

/-- A frame's kind answers a next state, and its effect is one of the list. -/
theorem exec_frame {i : Instr} {r : List Byte} (h : i.isFrame r = true)
    (hr : i = .rxResponse r → 8 ≤ (destuff r).length) (s : State) :
    ∃ t, exec i s = .next t ∧ FrameEffect r s t := by
  cases i <;> simp [Instr.isFrame] at h <;> subst h
  case rxSync => exact ⟨_, rfl, .sync _⟩
  case rxResponse => exact ⟨_, rfl, .response (hr rfl)⟩
  case rxBadStart => exact ⟨_, rfl, .discard _ _⟩
  case rxBadType => exact ⟨_, rfl, .discard _ _⟩
  case rxShort => exact ⟨_, rfl, .discard _ _⟩
  all_goals exact ⟨_, rfl, .record _⟩

/-! Agents (R8). -/

/-- What one step of an agent can leave, the agent already taken from the schedule. -/
inductive AgentEffect (s : State) : Agent → State → Prop where
  | idle (a : Agent) : AgentEffect s a s
  | pause (he : s.eng = .rx) (hp : s.pause = true) : AgentEffect s .engine { s with eng := .paused }
  | byte (b : Byte) (q : List Byte) (he : s.eng = .rx) (hp : s.pause = false) (hq : s.rxq = b :: q)
    (hb : b ≠ endOfFrame) (hl : s.rxbuf.length + 1 ≠ s.cfg.maxBufferSize) :
    AgentEffect s .engine { s with rxq := q, rxbuf := s.rxbuf ++ [b] }
  | overflow (b : Byte) (q : List Byte) (he : s.eng = .rx) (hp : s.pause = false) (hq : s.rxq = b :: q) :
    AgentEffect s .engine { s with rxq := q, rxbuf := [], counters := s.counters.bump .rxbufOvf }
  | frame (q : List Byte) (t : State) (he : s.eng = .rx) (hp : s.pause = false) (hq : s.rxq = endOfFrame :: q)
    (ht : FrameEffect (s.rxbuf ++ [endOfFrame]) { s with rxq := q, rxbuf := s.rxbuf ++ [endOfFrame] } t) :
    AgentEffect s .engine t
  | tx (b : Byte) (he : s.eng = .tx) (hq : s.txq.length < s.cfg.txFifoDepth) (hb : s.txbuf[s.txIdx]? = some b) :
    AgentEffect s .engine { s with
      txq := s.txq ++ [b]
      txIdx := s.txIdx + 1
      eng := if s.txIdx + 1 = s.txbuf.length then .flush else .tx }
  | flush (he : s.eng = .flush) (hq : s.txq = []) : AgentEffect s .engine { s with dir := false, eng := .rx }
  | unpause (he : s.eng = .paused) (hp : s.pause = false) : AgentEffect s .engine { s with eng := .resume }
  | resume (he : s.eng = .resume) (hq : s.txq = []) : AgentEffect s .engine { s with eng := .rx }
  | finish (hm : s.maint = true) : AgentEffect s .host s.maintainFinish
  | command (op : HostOp) (q : List HostOp) (t : State) (hm : s.maint = false) (hq : s.hostq = op :: q)
    (ht : CmdEffect { s with hostq := q } t) : AgentEffect s .host t
  | read (a : Word) (q : List HostOp) (hm : s.maint = false) (hq : s.hostq = .read a :: q) :
    AgentEffect s .host (State.hostRead { s with hostq := q } a)
  | write (a w : Word) (q : List HostOp) (hm : s.maint = false) (hq : s.hostq = .write a w :: q) :
    AgentEffect s .host (State.hostWrite { s with hostq := q } a w)
  | request (p : Request) (q : List HostOp) (hm : s.maint = false) (hq : s.hostq = .request p :: q) :
    AgentEffect s .host (State.runRequest { s with hostq := q } p)
  | wireRx (b : Byte) (q : List Byte) (hq : s.busq = b :: q) :
    AgentEffect s .wireRx (State.wireRxStep { s with busq := q } b)
  | wireTx (b : Byte) (q : List Byte) (hq : s.txq = b :: q) :
    AgentEffect s .wireTx { s with txq := q, txlog := s.txlog ++ [b] }
  | clock : AgentEffect s .clock s.clockStep
  | rst : AgentEffect s .rst s.rstStep

/-- The HOST's access of a request is its expansion, whether or not it is a payload command of the table. -/
theorem State.hostAccess_request (s : State) (q : Request) : s.hostAccess (.request q) = .next (s.runRequest q) := by
  simp only [State.hostAccess]
  split
  next h => exact exec_of_encode_request (decodeRequest_encode h) s
  · rfl

theorem State.engineRx_effect {s t : State} (he : s.eng = .rx) (h : s.engineRx = .next t) :
    AgentEffect s .engine t := by
  unfold State.engineRx at h
  split at h
  next hp => cases h; exact .pause he hp
  next hp =>
    have hp : s.pause = false := by simpa using hp
    split at h
    · cases h; exact .idle _
    next b q hq =>
      unfold State.intake at h
      simp only at h
      split at h
      next hb =>
        subst hb
        obtain ⟨t', ht', hf⟩ := exec_frame (decodeFrame_isFrame s.chkEnforce (s.rxbuf ++ [endOfFrame]))
          (fun hr => decodeFrame_response_length hr) { s with rxq := q, rxbuf := s.rxbuf ++ [endOfFrame] }
        cases ht'.symm.trans h
        exact .frame q _ he hp hq hf
      next hb =>
        split at h
        · cases h; exact .overflow b q he hp hq
        next hl => cases h; exact .byte b q he hp hq hb (by simpa using hl)

theorem State.engineStep_effect {s t : State} (h : s.engineStep = .next t) : AgentEffect s .engine t := by
  unfold State.engineStep at h
  split at h
  next he => exact State.engineRx_effect he h
  next he =>
    unfold State.engineTx at h
    split at h
    next hq =>
      split at h
      · simp at h
      next b hb => cases h; exact .tx b he hq hb
    · cases h; exact .idle _
  next he =>
    cases h
    unfold State.engineFlush
    split
    next hq => exact .flush he hq
    · exact .idle _
  next he =>
    cases h
    unfold State.enginePaused
    split
    · exact .idle _
    next hp => exact .unpause he (by simpa using hp)
  next he =>
    cases h
    unfold State.engineResume
    split
    next hq => exact .resume he hq
    · exact .idle _

theorem State.hostStep_effect {s t : State} (h : s.hostStep = .next t) : AgentEffect s .host t := by
  unfold State.hostStep at h
  split at h
  next hm => cases h; exact .finish hm
  next hm =>
    have hm : s.maint = false := by simpa using hm
    split at h
    · cases h; exact .idle _
    next op q hq =>
      cases op with
      | read a => cases h; exact .read a q hm hq
      | write a w =>
        simp only [State.hostAccess] at h
        split at h
        · obtain ⟨t', ht', hc⟩ := exec_command (decodeCmd_isCommand w) { s with hostq := q }
          rw [ht'] at h
          cases h
          exact .command _ q _ hm hq hc
        · cases h; exact .write a w q hm hq
      | request p =>
        rw [State.hostAccess_request] at h
        cases h
        exact .request p q hm hq

theorem State.runAgent_effect {s t : State} {a : Agent} (h : s.runAgent a = .next t) : AgentEffect s a t := by
  cases a with
  | engine => exact State.engineStep_effect h
  | host => exact State.hostStep_effect h
  | wireRx =>
    simp only [State.runAgent] at h
    split at h
    · cases h; exact .idle _
    next b q hq => cases h; exact .wireRx b q hq
  | wireTx =>
    simp only [State.runAgent, State.wireTxStep] at h
    split at h
    · cases h; exact .idle _
    next b q hq => cases h; exact .wireTx b q hq
  | clock => cases h; exact .clock
  | rst => cases h; exact .rst

/-- Every step that answers a next state is one agent's effect: the head of the schedule, which it takes away, or the
default agent when the schedule is empty. -/
theorem step_effect {s t : State} (h : step s = .next t) :
    (∃ a rest, s.sched = a :: rest ∧ AgentEffect { s with sched := rest } a t) ∨
    (s.sched = [] ∧ AgentEffect s s.defaultAgent t) := by
  unfold step State.schedStep at h
  split at h
  next a rest hs => exact .inl ⟨a, rest, hs, State.runAgent_effect h⟩
  next hs => exact .inr ⟨hs, State.runAgent_effect h⟩

end Sys2Proof.Machine
end

