-- ==== Sys2Proof/Tests/Slice0.lean ====
section
/-! SUPPORT. The tests: ill-formed terms refused, words written out from the spec's encodings decoded, one small step of
the instructions with the results that 95_test_vectors.md or the rules give, and a witness for every statement that has
hypotheses. -/

namespace Sys2Proof.Tests

open Sys2Proof Sys2Proof.Machine

/-! Frames of 95_test_vectors.md (W3, W4, W5, V-RX-1). -/

def syncFrame1 : List Byte := [0x83#8, 0x83#8, 0xFD#8, 0x00#8, 0x55#8, 0x00#8, 0x00#8, 0x00#8, 0xAF#8, 0xFF#8]
def sync2Frame : List Byte := [0x83#8, 0x83#8, 0xFD#8, 0x05#8, 0x55#8, 0xAB#8, 0x00#8, 0x00#8, 0xFA#8, 0x05#8, 0xFF#8]
def syncOtherFrame : List Byte := [0x83#8, 0x83#8, 0xFD#8, 0x05#8, 0x54#8, 0x00#8, 0x00#8, 0x00#8, 0xAB#8, 0xFF#8]
def syncShortFrame : List Byte := [0x83#8, 0x83#8, 0xFD#8, 0x16#8, 0x55#8, 0x00#8, 0x00#8, 0x99#8, 0xFF#8]
def responseFrame : List Byte := [0x83#8, 0x83#8, 0xFE#8, 0x05#8, 0x00#8, 0x80#8, 0x85#8, 0x00#8, 0xD0#8, 0x29#8, 0xFF#8]
def responseMinFrame : List Byte := [0x83#8, 0x83#8, 0xFE#8, 0x17#8, 0x00#8, 0x80#8, 0x6C#8, 0xFF#8]
def infoFrame : List Byte := [0x83#8, 0x83#8, 0xFE#8, 0x11#8, 0x20#8, 0x00#8, 0x00#8, 0x00#8, 0x00#8, 0x0C#8, 0xC6#8, 0xFF#8]
def ledFrame : List Byte := [0x83#8, 0x83#8, 0xFE#8, 0x10#8, 0x41#8, 0x10#8, 0x01#8, 0x00#8, 0x00#8, 0x02#8, 0x00#8, 0x00#8, 0x00#8, 0x00#8, 0x00#8, 0x00#8, 0x00#8, 0x9F#8, 0xFF#8]
def batteryFrame : List Byte := [0x83#8, 0x83#8, 0xFE#8, 0x12#8, 0x70#8, 0x81#8, 0xFF#8]
def chargerFrame : List Byte := [0x83#8, 0x83#8, 0xFE#8, 0x13#8, 0x80#8, 0x70#8, 0xFF#8]
def acPhaseFrame : List Byte := [0x83#8, 0x83#8, 0xFE#8, 0x14#8, 0xE4#8, 0x0B#8, 0xFF#8]
def dataOtherFrame : List Byte := [0x83#8, 0x83#8, 0xFE#8, 0x15#8, 0x99#8, 0x55#8, 0xFF#8]
def badStartFrame : List Byte := [0x98#8, 0xF7#8, 0xFE#8, 0x01#8, 0xFF#8]
def badTypeFrame : List Byte := [0x83#8, 0x83#8, 0xFC#8, 0x00#8, 0x00#8, 0x05#8, 0xFF#8]
def shortRawFrame : List Byte := [0x83#8, 0x83#8, 0xFF#8]
def shortDataFrame : List Byte := [0x83#8, 0x83#8, 0xFE#8, 0x01#8, 0xFF#8]
def shortResponseFrame : List Byte := [0x83#8, 0x83#8, 0xFE#8, 0x17#8, 0x00#8, 0xEC#8, 0xFF#8]
def badSumFrame : List Byte := [0x83#8, 0x83#8, 0xFD#8, 0x00#8, 0x55#8, 0x00#8, 0x00#8, 0x00#8, 0xAE#8, 0xFF#8]

/-- One candidate id, held by an entry of a ReadRAMVar request (W4). -/
def ramEntry (id : Byte) (sent : Bool) (resp : List Byte) : Entry :=
  { id := id, command := 0x30#8, address := 4#16, expCode := 0x85#8, respExp := true,
    payload := [0x00#8, id, 0x30#8, 0x04#8], isSent := sent, sentTime := 0#32, resend := 0#8, resp := resp }

/-- The staging registers as W4 writes them. -/
def staged : State :=
  { State.reset with
    enqDesc0 := 0x04038530#32
    enqDesc1 := 0x00000004#32
    enqPayload := #v[0x04300000#32, 0#32, 0#32, 0#32, 0#32, 0#32, 0#32, 0#32] }

/-- A registry of one entry. -/
def one (e : Entry) : State := { staged with slots := [e], idCtr := 0x81#8 }

/-- An outcome is a next state that passes a test. -/
def nextIs (o : Host.Outcome State Fault Refusal) (p : State → Bool) : Bool :=
  match o with
  | .next t => p t
  | _ => false

def noTarget : Target := { address := 0#16, coalesce := false }

/-! Ill-formed terms are refused, each by its own check. -/

theorem test_ill_formed_reserved_below_8 : Instr.wf false (.reserved 0x07#8) = false := by decide
theorem test_ill_formed_sync_not_ten_bytes : Instr.wf false (.rxSync syncShortFrame) = false := by decide
theorem test_ill_formed_sync_other_kind_byte : Instr.wf false (.rxSync syncOtherFrame) = false := by decide
theorem test_ill_formed_sync_other_is_sync : Instr.wf false (.rxSyncOther syncFrame1) = false := by decide
theorem test_ill_formed_frame_unterminated :
    Instr.wf false (.rxInfo [0x83#8, 0x83#8, 0xFE#8, 0x11#8, 0x20#8, 0x00#8]) = false := by decide
theorem test_ill_formed_response_too_short : Instr.wf false (.rxResponse shortResponseFrame) = false := by decide
theorem test_ill_formed_response_bad_start : Instr.wf false (.rxResponse badStartFrame) = false := by decide
theorem test_ill_formed_sum_enforced : Instr.wf true (.rxSync badSumFrame) = false := by decide
theorem test_ill_formed_info_wrong_byte : Instr.wf false (.rxInfo ledFrame) = false := by decide
theorem test_ill_formed_led_wrong_byte : Instr.wf false (.rxLed batteryFrame) = false := by decide
theorem test_ill_formed_battery_wrong_byte : Instr.wf false (.rxBattery chargerFrame) = false := by decide
theorem test_ill_formed_charger_wrong_byte : Instr.wf false (.rxCharger acPhaseFrame) = false := by decide
theorem test_ill_formed_ac_phase_wrong_byte : Instr.wf false (.rxAcPhase infoFrame) = false := by decide
theorem test_ill_formed_data_other_is_led : Instr.wf false (.rxDataOther ledFrame) = false := by decide
theorem test_ill_formed_data_other_is_sync : Instr.wf false (.rxDataOther syncFrame1) = false := by decide
theorem test_ill_formed_data_kind_short : Instr.wf false (.rxBattery shortDataFrame) = false := by decide
theorem test_ill_formed_bad_start_is_good : Instr.wf false (.rxBadStart ledFrame) = false := by decide
theorem test_ill_formed_bad_type_is_data : Instr.wf false (.rxBadType ledFrame) = false := by decide
theorem test_ill_formed_bad_type_short : Instr.wf false (.rxBadType shortRawFrame) = false := by decide
theorem test_ill_formed_short_is_long : Instr.wf false (.rxShort ledFrame) = false := by decide
theorem test_ill_formed_chk_discard_valid : Instr.wf true (.rxChkDiscard ledFrame) = false := by decide
theorem test_ill_formed_chk_discard_not_enforced : Instr.wf false (.rxChkDiscard badSumFrame) = false := by decide
theorem test_ill_formed_version0_body_of_one :
    Instr.wf false (.paySendSoftwareVersionPart0 noTarget 0x00#8 [0x01#8]) = false := by decide
theorem test_ill_formed_version1_body_of_three :
    Instr.wf false (.paySendSoftwareVersionPart1 noTarget 0x00#8 [0x01#8, 0x02#8, 0x03#8]) = false := by decide
theorem test_ill_formed_device_state_body_of_one :
    Instr.wf false (.payGetSetDeviceState noTarget 0x00#8 [0x01#8]) = false := by decide
theorem test_ill_formed_read_ram_no_index : Instr.wf false (.payReadRamVar noTarget 0x00#8 []) = false := by decide
theorem test_ill_formed_read_ram_seven :
    Instr.wf false (.payReadRamVar noTarget 0x00#8 (List.replicate 7 0x00#8)) = false := by decide
theorem test_ill_formed_write_ram_too_long :
    Instr.wf false (.payWriteRamVar noTarget noReply 0x00#8 (List.replicate 30 0x00#8)) = false := by decide
theorem test_ill_formed_write_setting_too_long :
    Instr.wf false (.payWriteSetting noTarget noReply 0x00#8 (List.replicate 30 0x00#8)) = false := by decide
theorem test_ill_formed_write_data_too_long :
    Instr.wf false (.payWriteData noTarget noReply 0x00#8 (List.replicate 30 0x00#8)) = false := by decide
theorem test_ill_formed_snapshot_too_long :
    Instr.wf false (.payReadSnapShot noTarget noReply 0x00#8 (List.replicate 30 0x00#8)) = false := by decide
theorem test_ill_formed_write_via_id_flags :
    Instr.wf false (.payWriteViaId noTarget 0x00#8 0x04#8 0x83#8 0x00#8 0x00#8) = false := by decide

/-! Words written out from R114 and R115 (bits 31:9 and C as said) decode to their commands. -/

theorem test_decode_nop : decode false (.cmd 0x00000000#32) = .ok .nop := by decide
theorem test_decode_nop_reserved_bits : decode false (.cmd 0xFFFFFF00#32) = .ok .nop := by decide
theorem test_decode_enqueue : decode false (.cmd 0x00000001#32) = .ok .enqueue := by decide
theorem test_decode_enqueue_c : decode false (.cmd 0x00000101#32) = .ok .enqueueC := by decide
theorem test_decode_expire : decode false (.cmd 0x00000002#32) = .ok .expire := by decide
theorem test_decode_expire_c : decode false (.cmd 0x00000102#32) = .ok .expire := by decide
theorem test_decode_harvest : decode false (.cmd 0x00000003#32) = .ok .harvest := by decide
theorem test_decode_maintain : decode false (.cmd 0x00000004#32) = .ok .maintain := by decide
theorem test_decode_pop_resp : decode false (.cmd 0x00000005#32) = .ok .popResp := by decide
theorem test_decode_pop_raw : decode false (.cmd 0x00000006#32) = .ok .popRaw := by decide
theorem test_decode_clr_counters : decode false (.cmd 0x00000007#32) = .ok .clrCounters := by decide
theorem test_decode_reserved_08 : decode false (.cmd 0x00000008#32) = .ok (.reserved 0x08#8) := by decide
theorem test_decode_reserved_ff : decode false (.cmd 0x000000FF#32) = .ok (.reserved 0xFF#8) := by decide

/-! Frames written out by R92 to R107 and classified by V-RX-1. -/

theorem test_decode_rx_sync : decode false (.frame syncFrame1) = .ok (.rxSync syncFrame1) := by decide
theorem test_decode_rx_sync_two_byte_sum : decode true (.frame sync2Frame) = .ok (.rxSync sync2Frame) := by decide
theorem test_decode_rx_sync_other :
    decode false (.frame syncOtherFrame) = .ok (.rxSyncOther syncOtherFrame) := by decide
theorem test_decode_rx_sync_nine :
    decode false (.frame syncShortFrame) = .ok (.rxSyncOther syncShortFrame) := by decide
theorem test_decode_rx_response : decode true (.frame responseFrame) = .ok (.rxResponse responseFrame) := by decide
theorem test_decode_rx_response_min :
    decode true (.frame responseMinFrame) = .ok (.rxResponse responseMinFrame) := by decide
theorem test_decode_rx_info : decode true (.frame infoFrame) = .ok (.rxInfo infoFrame) := by decide
theorem test_decode_rx_led : decode true (.frame ledFrame) = .ok (.rxLed ledFrame) := by decide
theorem test_decode_rx_battery : decode true (.frame batteryFrame) = .ok (.rxBattery batteryFrame) := by decide
theorem test_decode_rx_charger : decode true (.frame chargerFrame) = .ok (.rxCharger chargerFrame) := by decide
theorem test_decode_rx_ac_phase : decode true (.frame acPhaseFrame) = .ok (.rxAcPhase acPhaseFrame) := by decide
theorem test_decode_rx_data_other :
    decode true (.frame dataOtherFrame) = .ok (.rxDataOther dataOtherFrame) := by decide
theorem test_decode_rx_bad_start : decode false (.frame badStartFrame) = .ok (.rxBadStart badStartFrame) := by decide
theorem test_decode_rx_bad_type : decode false (.frame badTypeFrame) = .ok (.rxBadType badTypeFrame) := by decide
theorem test_decode_rx_short_raw : decode false (.frame shortRawFrame) = .ok (.rxShort shortRawFrame) := by decide
theorem test_decode_rx_short_data : decode false (.frame shortDataFrame) = .ok (.rxShort shortDataFrame) := by decide
theorem test_decode_rx_short_response :
    decode true (.frame shortResponseFrame) = .ok (.rxShort shortResponseFrame) := by decide
theorem test_decode_rx_chk_discard : decode true (.frame badSumFrame) = .ok (.rxChkDiscard badSumFrame) := by decide
theorem test_decode_rx_bad_sum_kept : decode false (.frame badSumFrame) = .ok (.rxSync badSumFrame) := by decide

/-! Requests written out from R96 to R103, R112, R113 and R123 decode to their payload commands. -/

/-- A request with id byte 0 and no coalescing. -/
def req (k : Byte) (a : BitVec 16) (e : Byte) (r i : Bool) (p : List Byte) : Request :=
  { command := k, address := a, expCode := e, respExp := r, idInPayload := i, coalesce := false, payload := p }

theorem test_decode_version0 :
    decode false (.request (req 0x05#8 0#16 0x82#8 true true [0x00#8, 0x00#8, 0x05#8])) =
      .ok (.paySendSoftwareVersionPart0 noTarget 0x00#8 []) := by decide
theorem test_decode_version1 :
    decode false (.request (req 0x06#8 0#16 0x82#8 true true [0x00#8, 0x00#8, 0x06#8])) =
      .ok (.paySendSoftwareVersionPart1 noTarget 0x00#8 []) := by decide
theorem test_decode_device_state :
    decode false (.request (req 0x0E#8 0#16 0x94#8 true true [0x00#8, 0x00#8, 0x0E#8, 0x01#8, 0x02#8])) =
      .ok (.payGetSetDeviceState noTarget 0x00#8 [0x01#8, 0x02#8]) := by decide
theorem test_decode_read_ram :
    decode false (.request (req 0x30#8 4#16 0x85#8 true true [0x00#8, 0x00#8, 0x30#8, 0x04#8])) =
      .ok (.payReadRamVar { address := 4#16, coalesce := false } 0x00#8 [0x04#8]) := by decide
theorem test_decode_read_setting :
    decode false (.request (req 0x31#8 0x0102#16 0x86#8 true true [0x00#8, 0x00#8, 0x31#8, 0x02#8, 0x01#8])) =
      .ok (.payReadSetting { address := 0x0102#16, coalesce := false } 0x00#8 0x02#8 0x01#8) := by decide
theorem test_decode_write_ram :
    decode false (.request (req 0x32#8 0x0083#16 0x87#8 true true [0x00#8, 0x00#8, 0x32#8, 0x02#8, 0x83#8, 0x24#8, 0xFA#8])) =
      .ok (.payWriteRamVar { address := 0x0083#16, coalesce := false } { respExp := true, expCode := 0x87#8 } 0x00#8 [0x02#8, 0x83#8, 0x24#8, 0xFA#8]) := by decide
theorem test_decode_write_setting :
    decode false (.request (req 0x33#8 0#16 0x87#8 true true [0x00#8, 0x00#8, 0x33#8, 0x01#8])) =
      .ok (.payWriteSetting noTarget { respExp := true, expCode := 0x87#8 } 0x00#8 [0x01#8]) := by decide
theorem test_decode_write_data :
    decode false (.request (req 0x34#8 0#16 0x00#8 false true [0x00#8, 0x00#8, 0x34#8])) =
      .ok (.payWriteData noTarget noReply 0x00#8 []) := by decide
theorem test_decode_setting_info :
    decode false (.request (req 0x35#8 0#16 0x89#8 true true [0x00#8, 0x00#8, 0x35#8, 0x02#8, 0x01#8])) =
      .ok (.payGetSettingInfo noTarget 0x00#8 0x02#8 0x01#8) := by decide
theorem test_decode_ram_info :
    decode false (.request (req 0x36#8 0#16 0x8E#8 true true [0x00#8, 0x00#8, 0x36#8, 0x02#8, 0x01#8])) =
      .ok (.payGetRamVarInfo noTarget 0x00#8 0x02#8 0x01#8) := by decide
theorem test_decode_write_via_id :
    decode false (.request (req 0x37#8 0x0083#16 0x87#8 true true [0x00#8, 0x00#8, 0x37#8, 0x02#8, 0x83#8, 0x24#8, 0xFA#8])) =
      .ok (.payWriteViaId { address := 0x0083#16, coalesce := false } 0x00#8 0x02#8 0x83#8 0x24#8 0xFA#8) := by decide
theorem test_decode_snapshot :
    decode false (.request (req 0x38#8 0#16 0x99#8 true true [0x00#8, 0x00#8, 0x38#8])) =
      .ok (.payReadSnapShot noTarget { respExp := true, expCode := 0x99#8 } 0x00#8 []) := by decide
theorem test_decode_switch_state :
    decode false (.request (req 0x3F#8 0#16 0x00#8 false false [0x3F#8, 0x07#8, 0x00#8, 0x00#8, 0x00#8])) =
      .ok (.paySetSwitchState noTarget .chargerInverter) := by decide

/-! Encodings: the expansion of W7 and the frames of V-COD. -/

theorem test_requests_that_break_the_contract_are_no_row :
    decode false (.request (req 0x30#8 0#16 0x84#8 true true [0x00#8, 0x00#8, 0x30#8, 0x04#8])) = .error .unknownRequest := by decide
theorem test_unterminated_frame_is_refused :
    decode false (.frame [0x83#8, 0x83#8]) = .error .notTerminated := by decide
theorem test_request_desc0_w7 :
    requestDesc0 (req 0x37#8 0x0083#16 0x87#8 true true [0#8, 0#8, 0x37#8, 2#8, 0x83#8, 0x24#8, 0xFA#8]) = 0x07038737#32 := by decide
theorem test_stuff_w1 : stuff [0x00#8, 0xFA#8, 0x12#8] = [0x00#8, 0xFA#8, 0x7A#8, 0x12#8] := by decide
theorem test_destuff_trailing_escape :
    destuff [0xFA#8, 0xFA#8, 0xFA#8, 0xFF#8] = [0xFA#8, 0xFA#8, 0xFF#8] := by decide
theorem test_chk_encode_w2 : chkEncode (chkValue [0x06#8]) = [0xFA#8, 0x01#8] := by decide
theorem test_build_frame_w4 :
    buildFrame 0x01#8 [0x00#8, 0x80#8, 0x30#8, 0x04#8] = [0x98#8, 0xF7#8, 0xFE#8, 0x01#8, 0x00#8, 0x80#8, 0x30#8, 0x04#8, 0x4E#8, 0xFF#8] := by decide
theorem test_table_word_rx_sync :
    decodeTableWord 16 0xFD55 = some (.rxSync [0x83#8, 0x83#8, 0xFD#8, 0x00#8, 0x55#8, 0x00#8, 0x00#8, 0x00#8, 0xAF#8, 0xFF#8]) := by decide

/-! One small step of the instructions. -/

theorem test_nop_clears_result :
    nextIs (exec .nop { staged with result := 1#32 })
      (fun t => t.result == 0#32) = true := by decide
theorem test_enqueue_w4 :
    nextIs (exec .enqueue staged)
      (fun t => t.result == 0x00008000#32 && t.idCtr == 0x81#8 && t.slots == [ramEntry 0x80#8 false []]) = true := by decide
theorem test_enqueue_c_replaces :
    nextIs (exec .enqueueC (one (ramEntry 0x80#8 true [])))
      (fun t => t.result == 0x00018100#32 && t.slots == [ramEntry 0x81#8 false []]) = true := by decide
theorem test_enqueue_full_spends_the_id :
    nextIs (exec .enqueue { one (ramEntry 0x80#8 true []) with cfg := { Config.reference with fifoSize := 1 } })
      (fun t => t.result == 1#32 && t.idCtr == 0x82#8 && t.slots.length == 1) = true := by decide
theorem test_expire_retries_at_timeout :
    nextIs (exec .expire { one (ramEntry 0x80#8 true []) with nowMs := 100#32 })
      (fun t => t.result == 0x01000000#32 && t.slots.map Entry.resend == [1#8] && t.counters.retryTimeout == 1#32) = true := by decide
theorem test_expire_not_before_timeout :
    nextIs (exec .expire { one (ramEntry 0x80#8 true []) with nowMs := 99#32 })
      (fun t => t.result == 0#32 && t.slots.map Entry.resend == [0#8]) = true := by decide
theorem test_harvest_w4 :
    nextIs (exec .harvest (one (ramEntry 0x80#8 true responseFrame)))
      (fun t => t.result == 0x01000000#32 && t.slots == [] && t.respHdr == 0x800B3080#32) = true := by decide
theorem test_harvest_mismatch_retries :
    nextIs (exec .harvest (one { ramEntry 0x80#8 true responseFrame with expCode := 0x86#8 }))
      (fun t => t.result == 0#32 && t.counters.retryMismatch == 1#32) = true := by decide
theorem test_maintain_expires_first :
    nextIs (exec .maintain { one (ramEntry 0x80#8 true responseFrame) with nowMs := 100#32 })
      (fun t => t.maint && t.respq == [] && t.counters.retryTimeout == 1#32) = true := by decide
theorem test_pop_resp_empty :
    nextIs (exec .popResp staged)
      (fun t => t.result == 4#32) = true := by decide
theorem test_pop_raw_head :
    nextIs (exec .popRaw { staged with rawq := [{ bytes := ledFrame, kind := .led, chkOk := true, matched := false }] })
      (fun t => t.result == 0#32 && t.rawq == []) = true := by decide
theorem test_clr_counters :
    nextIs (exec .clrCounters { staged with counters := { Counters.zero with tx := 3#32 } })
      (fun t => t.counters == Counters.zero) = true := by decide
theorem test_reserved_is_illegal :
    nextIs (exec (.reserved 0xFF#8) staged)
      (fun t => t.result == 5#32) = true := by decide
theorem test_rx_sync_w3 :
    nextIs (exec (.rxSync syncFrame1) (one (ramEntry 0x80#8 false [])))
      (fun t => t.eng == .tx && t.dir && t.rawHdr == 0x8001010A#32 && t.txbuf == [0x98#8, 0xF7#8, 0xFE#8, 0x01#8, 0x00#8, 0x80#8, 0x30#8, 0x04#8, 0x4E#8, 0xFF#8]) = true := by decide
theorem test_rx_sync_without_unsent :
    nextIs (exec (.rxSync syncFrame1) staged)
      (fun t => t.eng == .rx && t.counters.sync == 1#32 && t.counters.tx == 0#32) = true := by decide
theorem test_rx_response_w4 :
    nextIs (exec (.rxResponse responseFrame) (one (ramEntry 0x80#8 true [])))
      (fun t => t.rawHdr == 0x8003030B#32 && t.slots == [ramEntry 0x80#8 true responseFrame]) = true := by decide
theorem test_rx_response_unmatched :
    nextIs (exec (.rxResponse responseFrame) staged)
      (fun t => t.rawHdr == 0x8001030B#32 && t.counters.unmatched == 1#32) = true := by decide
theorem test_rx_sync_other_record :
    nextIs (exec (.rxSyncOther syncOtherFrame) staged)
      (fun t => t.rawHdr == 0x8001020A#32 && t.counters.frame == 1#32) = true := by decide
theorem test_rx_info_record :
    nextIs (exec (.rxInfo infoFrame) staged)
      (fun t => t.rawHdr == 0x8001040C#32 && t.counters.frame == 1#32) = true := by decide
theorem test_rx_led_record :
    nextIs (exec (.rxLed ledFrame) staged)
      (fun t => t.rawHdr == 0x80010513#32 && t.counters.frame == 1#32) = true := by decide
theorem test_rx_battery_record :
    nextIs (exec (.rxBattery batteryFrame) staged)
      (fun t => t.rawHdr == 0x80010607#32 && t.counters.frame == 1#32) = true := by decide
theorem test_rx_charger_record :
    nextIs (exec (.rxCharger chargerFrame) staged)
      (fun t => t.rawHdr == 0x80010707#32 && t.counters.frame == 1#32) = true := by decide
theorem test_rx_ac_phase_record :
    nextIs (exec (.rxAcPhase acPhaseFrame) staged)
      (fun t => t.rawHdr == 0x80010807#32 && t.counters.frame == 1#32) = true := by decide
theorem test_rx_data_other_record :
    nextIs (exec (.rxDataOther dataOtherFrame) staged)
      (fun t => t.rawHdr == 0x80010907#32 && t.counters.frame == 1#32) = true := by decide
theorem test_rx_bad_start_record :
    nextIs (exec (.rxBadStart badStartFrame) staged)
      (fun t => t.rawHdr == 0x80008105#32 && t.counters.badStart == 1#32) = true := by decide
theorem test_rx_bad_type_record :
    nextIs (exec (.rxBadType badTypeFrame) staged)
      (fun t => t.rawHdr == 0x80008207#32 && t.counters.badType == 1#32) = true := by decide
theorem test_rx_short_record :
    nextIs (exec (.rxShort shortDataFrame) staged)
      (fun t => t.rawHdr == 0x80008305#32 && t.counters.short == 1#32) = true := by decide
theorem test_rx_chk_discard_record :
    nextIs (exec (.rxChkDiscard badSumFrame) staged)
      (fun t => t.rawHdr == 0x8000840A#32 && t.counters.chkFail == 1#32) = true := by decide

/-- The registry's last payload, and RESULT. -/
def sends (i : Instr) (p : List Byte) : Bool :=
  nextIs (exec i State.reset) fun t => t.slots.map Entry.payload == [p] && t.result == 0x00008000#32

theorem test_pay_version0 :
    sends (.paySendSoftwareVersionPart0 noTarget 0x00#8 [])
      [0x00#8, 0x80#8, 0x05#8] = true := by decide
theorem test_pay_version1 :
    sends (.paySendSoftwareVersionPart1 noTarget 0x00#8 [])
      [0x00#8, 0x80#8, 0x06#8] = true := by decide
theorem test_pay_device_state :
    sends (.payGetSetDeviceState noTarget 0x00#8 [0x01#8, 0x02#8])
      [0x00#8, 0x80#8, 0x0E#8, 0x01#8, 0x02#8] = true := by decide
theorem test_pay_read_ram :
    sends (.payReadRamVar { address := 4#16, coalesce := false } 0x00#8 [0x04#8])
      [0x00#8, 0x80#8, 0x30#8, 0x04#8] = true := by decide
theorem test_pay_read_setting :
    sends (.payReadSetting { address := 0x0102#16, coalesce := false } 0x00#8 0x02#8 0x01#8)
      [0x00#8, 0x80#8, 0x31#8, 0x02#8, 0x01#8] = true := by decide
theorem test_pay_write_ram :
    sends (.payWriteRamVar { address := 0x0083#16, coalesce := false } { respExp := true, expCode := 0x87#8 } 0x00#8 [0x02#8, 0x83#8, 0x24#8, 0xFA#8])
      [0x00#8, 0x80#8, 0x32#8, 0x02#8, 0x83#8, 0x24#8, 0xFA#8] = true := by decide
theorem test_pay_write_setting :
    sends (.payWriteSetting noTarget { respExp := true, expCode := 0x87#8 } 0x00#8 [0x01#8])
      [0x00#8, 0x80#8, 0x33#8, 0x01#8] = true := by decide
theorem test_pay_write_data :
    sends (.payWriteData noTarget noReply 0x00#8 [])
      [0x00#8, 0x80#8, 0x34#8] = true := by decide
theorem test_pay_setting_info :
    sends (.payGetSettingInfo noTarget 0x00#8 0x02#8 0x01#8)
      [0x00#8, 0x80#8, 0x35#8, 0x02#8, 0x01#8] = true := by decide
theorem test_pay_ram_info :
    sends (.payGetRamVarInfo noTarget 0x00#8 0x02#8 0x01#8)
      [0x00#8, 0x80#8, 0x36#8, 0x02#8, 0x01#8] = true := by decide
theorem test_pay_write_via_id :
    sends (.payWriteViaId { address := 0x0083#16, coalesce := false } 0x00#8 0x02#8 0x83#8 0x24#8 0xFA#8)
      [0x00#8, 0x80#8, 0x37#8, 0x02#8, 0x83#8, 0x24#8, 0xFA#8] = true := by decide
theorem test_pay_snapshot :
    sends (.payReadSnapShot noTarget { respExp := true, expCode := 0x99#8 } 0x00#8 [])
      [0x00#8, 0x80#8, 0x38#8] = true := by decide
theorem test_pay_switch_state :
    sends (.paySetSwitchState noTarget .chargerInverter)
      [0x3F#8, 0x07#8, 0x00#8, 0x00#8, 0x00#8] = true := by decide
theorem test_pay_write_via_id_staging :
    nextIs (exec (.payWriteViaId { address := 0x0083#16, coalesce := true } 0x00#8 0x02#8 0x83#8 0x24#8 0xFA#8) staged)
      (fun t => t.enqDesc0 == 0x07038737#32 && t.enqDesc1 == 0x83#32 && t.enqPayload[0] == 0x02370000#32 &&
        t.enqPayload[1] == 0x00FA2483#32) = true := by decide


/-! A witness for every statement that has hypotheses: concrete states and operands that meet all of them together. -/

/-- Descriptors at the boundaries of the legal length: LEN 0, LEN 33, and LEN 1 with ID_IN_PAYLOAD. -/
theorem witness_EnqueueRefusesBadLength :
    ¬ LegalLength State.reset ∧ ¬ LegalLength { staged with enqDesc0 := 0x21000030#32 } ∧
      ¬ LegalLength { staged with enqDesc0 := 0x01020030#32 } := by
  unfold LegalLength; decide

theorem staged_legal : LegalLength staged := by unfold LegalLength; decide

/-- The shortest and the longest legal payloads. -/
theorem legal_bounds : LegalLength { staged with enqDesc0 := 0x01000030#32 } ∧
    LegalLength { staged with enqDesc0 := 0x02020030#32 } ∧ LegalLength { staged with enqDesc0 := 0x20020030#32 } := by
  unfold LegalLength; decide

/-- All 127 candidate ids in use. -/
def crowded : State :=
  { staged with
    slots := (List.range 127).map (fun k =>
      ramEntry (0x80#8 ||| ((0x80#8 + BitVec.ofNat 8 k) &&& 0x7F#8)) false []) }

theorem witness_EnqueueReportsIdExhausted : LegalLength crowded ∧
    ∀ k, k < 127 → ∃ e ∈ crowded.slots, e.id = 0x80#8 ||| ((crowded.idCtr + BitVec.ofNat 8 k) &&& 0x7F#8) :=
  ⟨staged_legal, fun k hk => ⟨_, List.mem_map.2 ⟨k, List.mem_range.2 hk, rfl⟩, rfl⟩⟩

theorem fresh_80 : FreshId staged 0x80#8 :=
  ⟨0, by decide, by decide, by simp [staged, State.reset, State.resetWith], by omega⟩

theorem witness_EnqueueAppendsTheStagedEntry : LegalLength staged ∧ FreshId staged 0x80#8 ∧
    staged.slots.length < staged.cfg.fifoSize ∧ (true = true → ∀ e ∈ staged.slots, ¬ SameKey staged e) :=
  ⟨staged_legal, fresh_80, by decide, by simp [staged, State.reset, State.resetWith]⟩

/-- An entry with the staged key, in slot 0. -/
def keyed : State := one (ramEntry 0x80#8 true [])

theorem fresh_81 : FreshId keyed 0x81#8 :=
  ⟨0, by decide, by decide, by simp [keyed, one, ramEntry], by omega⟩

theorem witness_EnqueueCoalescesInPlace : LegalLength keyed ∧ FreshId keyed 0x81#8 ∧
    LeastIndex keyed.slots (SameKey keyed) 0 (ramEntry 0x80#8 true []) :=
  ⟨staged_legal, fresh_81, rfl, by unfold SameKey; decide, by omega⟩

/-- A full registry whose one entry has another key. -/
def full : State :=
  { one { ramEntry 0x80#8 true [] with address := 5#16 } with cfg := { Config.reference with fifoSize := 1 } }

theorem witness_EnqueueReportsFifoFull : LegalLength full ∧ FreshId full 0x81#8 ∧
    full.slots.length = full.cfg.fifoSize ∧ (true = true → ∀ e ∈ full.slots, ¬ SameKey full e) :=
  ⟨staged_legal, ⟨0, by decide, by decide, by simp [full, one, ramEntry], by omega⟩, rfl, by unfold SameKey; decide⟩

theorem witness_AllocationSucceedsBelow127Entries : keyed.slots.length ≤ 126 ∧
    ({ crowded with slots := crowded.slots.take 126 } : State).slots.length ≤ 126 :=
  ⟨by decide, List.length_take_le _ _⟩

theorem witness_HarvestDeliversAnsweredEntries :
    (one (ramEntry 0x80#8 true responseFrame)).respq.length ≤ (one (ramEntry 0x80#8 true responseFrame)).cfg.respFifoDepth ∧
      HasAnswer (ramEntry 0x80#8 true responseFrame) = true := by decide

theorem witness_MaintainHarvestsSecond :
    ({ keyed with maint := true, sched := [.host] } : State).maint = true ∧
      ({ keyed with maint := true, sched := [.host] } : State).sched = .host :: [] := ⟨rfl, rfl⟩

theorem witness_ForwardedKindsAreOnlyRecorded :
    ((.rxSyncOther syncOtherFrame, .syncOther) ∈ forwardedKinds syncOtherFrame ∧ (Instr.rxSyncOther syncOtherFrame).wf true) ∧
    ((.rxInfo infoFrame, .info) ∈ forwardedKinds infoFrame ∧ (Instr.rxInfo infoFrame).wf true) ∧
    ((.rxLed ledFrame, .led) ∈ forwardedKinds ledFrame ∧ (Instr.rxLed ledFrame).wf true) ∧
    ((.rxBattery batteryFrame, .battery) ∈ forwardedKinds batteryFrame ∧ (Instr.rxBattery batteryFrame).wf true) ∧
    ((.rxCharger chargerFrame, .charger) ∈ forwardedKinds chargerFrame ∧ (Instr.rxCharger chargerFrame).wf true) ∧
    ((.rxAcPhase acPhaseFrame, .acPhase) ∈ forwardedKinds acPhaseFrame ∧ (Instr.rxAcPhase acPhaseFrame).wf true) ∧
    ((.rxDataOther dataOtherFrame, .dataOther) ∈ forwardedKinds dataOtherFrame ∧
      (Instr.rxDataOther dataOtherFrame).wf true) := by decide

theorem witness_DiscardedKindsAreCountedAndRecorded :
    ((.rxBadStart badStartFrame, .badStart, false, [.badStart]) ∈ discardedKinds badStartFrame ∧
      (Instr.rxBadStart badStartFrame).wf true) ∧
    ((.rxBadType badTypeFrame, .badType, false, [.badType]) ∈ discardedKinds badTypeFrame ∧
      (Instr.rxBadType badTypeFrame).wf true) ∧
    ((.rxShort shortRawFrame, .short, false, [.short]) ∈ discardedKinds shortRawFrame ∧
      (Instr.rxShort shortRawFrame).wf true) ∧
    ((.rxShort shortDataFrame, .short, false, [.short, .chkFail]) ∈ discardedKinds shortDataFrame ∧
      (Instr.rxShort shortDataFrame).wf false) ∧
    ((.rxShort shortResponseFrame, .short, true, [.short]) ∈ discardedKinds shortResponseFrame ∧
      (Instr.rxShort shortResponseFrame).wf true) ∧
    ((.rxChkDiscard badSumFrame, .chkDiscard, false, [.chkFail]) ∈ discardedKinds badSumFrame ∧
      (Instr.rxChkDiscard badSumFrame).wf true) :=
  ⟨by decide, by decide, by decide, by decide, by decide, by decide⟩

theorem witness_ResponseIsStoredInItsEntry : (Instr.rxResponse responseFrame).wf true = true ∧
    LeastIndex keyed.slots (Takes (destuff responseFrame)) 0 (ramEntry 0x80#8 true []) :=
  ⟨by decide, rfl, by unfold Takes; decide, by omega⟩

theorem witness_UnmatchedResponseChangesNoEntry : (Instr.rxResponse responseFrame).wf true = true ∧
    ∀ e ∈ (one (ramEntry 0x80#8 false [])).slots, ¬ Takes (destuff responseFrame) e :=
  ⟨by decide, by unfold Takes; decide⟩

theorem witness_SyncWithoutUnsentEntrySendsNothing :
    (Instr.rxSync syncFrame1).wf true = true ∧ ∀ e ∈ keyed.slots, e.isSent = true := by decide

/-- Both ways an entry leaves: one that expects a response and one that expects none. -/
theorem witness_SyncReleasesTheFirstUnsentEntry (r : Bool) :
    (Instr.rxSync syncFrame1).wf true = true ∧ (destuff syncFrame1)[3]? = some 0x00#8 ∧
      LeastIndex (one { ramEntry 0x80#8 false [] with respExp := r }).slots (fun e => e.isSent = false) 0
        { ramEntry 0x80#8 false [] with respExp := r } :=
  ⟨by decide, by decide, rfl, rfl, by omega⟩

/-- The largest request of R100, and the short form of R103. -/
theorem witness_PayloadCommandStagesAndEnqueues :
    ((∃ q, encode (.payReadRamVar noTarget 0x00#8 [1#8, 2#8, 3#8, 4#8, 5#8, 6#8]) = .request q) ∧
      (Instr.payReadRamVar noTarget 0x00#8 [1#8, 2#8, 3#8, 4#8, 5#8, 6#8]).wf true = true) ∧
    (∃ q, encode (.paySetSwitchState noTarget .sleep) = .request q) ∧
      (Instr.paySetSwitchState noTarget .sleep).wf true = true :=
  ⟨⟨⟨_, rfl⟩, rfl⟩, ⟨_, rfl⟩, rfl⟩

/-- The short form and a row of the template (W7). -/
theorem witness_PayloadCommandAppendsItsRequest :
    payloadRow (.paySetSwitchState { noTarget with coalesce := true } .sleep) =
      some (switchRequest { noTarget with coalesce := true } .sleep) ∧
    (Instr.paySetSwitchState { noTarget with coalesce := true } .sleep).wf true = true ∧
    payloadRow (.payWriteViaId noTarget 0x00#8 0x00#8 0x02#8 0x34#8 0x12#8) =
      some (codedRequest noTarget noReply 0x00#8 0x37#8 [0x00#8, 0x02#8, 0x34#8, 0x12#8]) ∧
    (Instr.payWriteViaId noTarget 0x00#8 0x00#8 0x02#8 0x34#8 0x12#8).wf true = true ∧
    FreshId keyed 0x81#8 ∧ keyed.slots.length < keyed.cfg.fifoSize ∧
    ∀ e ∈ keyed.slots, ¬ (e.command = 0x3F#8 ∧ e.address = 0#16) :=
  ⟨rfl, rfl, rfl, rfl, fresh_81, by decide, by decide⟩

theorem witness_PayloadCommandEqualsItsHostAccesses :
    encode (.payReadSetting noTarget 0x00#8 0x02#8 0x01#8) =
      .request (codedRequest noTarget noReply 0x00#8 0x31#8 [0x02#8, 0x01#8]) ∧
    (Instr.payReadSetting noTarget 0x00#8 0x02#8 0x01#8).wf true = true ∧ State.reset.maint = false := ⟨rfl, rfl, rfl⟩

/-- One state for each of the three places a step fetches from. -/
theorem witness_StepRunsTheDecodedInstruction :
    (∃ s : State, s.sched = .host :: [] ∧ s.maint = false ∧ s.hostq = .write 0x00F#32 2#32 :: [] ∧
      (0x00F#32).toNat / 4 = 3 ∧ decode s.chkEnforce (.cmd 2#32) = .ok .expire) ∧
    (∃ s : State, s.sched = .engine :: [] ∧ s.eng = .rx ∧ s.pause = false ∧ s.rxq = 0xFF#8 :: [] ∧
      decode s.chkEnforce (.frame (s.rxbuf ++ [0xFF#8])) = .ok (.rxLed ledFrame)) ∧
    (∃ s : State, s.sched = .host :: [] ∧ s.maint = false ∧
      s.hostq = .request (switchRequest noTarget .sleep) :: [] ∧
      decode s.chkEnforce (.request (switchRequest noTarget .sleep)) = .ok (.paySetSwitchState noTarget .sleep)) :=
  ⟨⟨{ staged with sched := [.host], hostq := [.write 0x00F#32 2#32] }, by decide⟩,
    ⟨{ staged with sched := [.engine], rxq := [0xFF#8], rxbuf := ledFrame.dropLast }, by decide⟩,
    ⟨{ staged with sched := [.host], hostq := [.request (switchRequest noTarget .sleep)] }, by decide⟩⟩

theorem witness_DecodeOfEncodeIsIdentity :
    (Instr.rxShort [0x83#8, 0x83#8, 0xFF#8]).wf true = true ∧ (Instr.reserved 0x08#8).wf true = true ∧
      (Instr.payReadSnapShot noTarget noReply 0x00#8 (List.replicate 29 0xFF#8)).wf true = true := by decide

theorem witness_EveryCompletedFrameHasOneKind : [0xFF#8].getLast? = some 0xFF#8 ∧ ledFrame.getLast? = some 0xFF#8 := by
  decide

theorem witness_SyncDetectorConditions : syncFrame1.getLast? = some 0xFF#8 ∧ sync2Frame.getLast? = some 0xFF#8 := by
  decide

theorem witness_CommandWordsIgnoreUnusedBits :
    0x00000102#32 &&& 0x000000FF#32 ≠ 0x00000001#32 ∧ 0x00000008#32 ≤ 0xABCD0008#32 &&& 0x000000FF#32 ∧
      0x00000008#32 ≤ 0x000001FF#32 &&& 0x000000FF#32 := by decide

theorem witness_BuiltFrameLength : 1 ≤ [0x07#8].length ∧ (List.replicate 32 0xFF#8).length ≤ 32 := by decide

theorem witness_DestuffKeepsTheHead : ledFrame.getLast? = some 0xFF#8 ∧ headOk ledFrame = true := by decide

/-- A state whose next step is the ENGINE's. -/
def eng (e : Eng) : State := { staged with sched := [.engine], eng := e }

theorem witness_EngineIntakesOneByte :
    ({ eng .rx with ctrl := 1#32 } : State).pause = true ∧
    ((eng .rx).pause = false ∧ (eng .rx).rxq = []) ∧
    (∃ s : State, s.sched = .engine :: [] ∧ s.eng = .rx ∧ s.pause = false ∧ s.rxq = 0x83#8 :: [] ∧ 0x83#8 ≠ 0xFF#8 ∧
      s.rxbuf.length + 1 ≠ s.cfg.maxBufferSize) ∧
    ∃ s : State, s.sched = .engine :: [] ∧ s.eng = .rx ∧ s.pause = false ∧ s.rxq = 0x00#8 :: [] ∧ 0x00#8 ≠ 0xFF#8 ∧
      s.rxbuf.length + 1 = s.cfg.maxBufferSize :=
  ⟨by decide, by decide, ⟨{ eng .rx with rxq := [0x83#8] }, by decide⟩,
    ⟨{ eng .rx with rxq := [0x00#8], rxbuf := List.replicate 31 0x00#8 }, by decide⟩⟩

/-- The last byte of a frame into a FIFO with room, and a full FIFO. -/
theorem witness_EngineTransmitsOneByte :
    (∃ s : State, s.sched = .engine :: [] ∧ s.eng = .tx ∧ s.txq.length < s.cfg.txFifoDepth ∧
      s.txbuf[s.txIdx]? = some 0xFF#8 ∧ s.txIdx + 1 = s.txbuf.length) ∧
    ∃ s : State, s.sched = .engine :: [] ∧ s.eng = .tx ∧ s.txq.length = s.cfg.txFifoDepth :=
  ⟨⟨{ eng .tx with txbuf := [0x98#8, 0xFF#8], txIdx := 1 }, by decide⟩,
    ⟨{ eng .tx with txq := List.replicate 32 0x00#8 }, by decide⟩⟩

theorem witness_EngineWaitsInFlushPausedAndResume :
    ((eng .flush).eng = .flush ∧ (eng .flush).txq = []) ∧
    (({ eng .flush with txq := [0xFF#8] } : State).eng = .flush ∧ ({ eng .flush with txq := [0xFF#8] } : State).txq ≠ []) ∧
    ((eng .paused).eng = .paused ∧ (eng .paused).pause = false) ∧
    (({ eng .paused with ctrl := 1#32 } : State).eng = .paused ∧ ({ eng .paused with ctrl := 1#32 } : State).pause = true) ∧
    ((eng .resume).eng = .resume ∧ (eng .resume).txq = []) ∧
    (({ eng .resume with txq := [0xFF#8] } : State).eng = .resume ∧
      ({ eng .resume with txq := [0xFF#8] } : State).txq ≠ []) := by decide

/-- A byte on the bus, with DIR and `rxq` as said. -/
def arriving (d : Bool) (n : Nat) : State :=
  { staged with sched := [.wireRx], busq := [0x55#8], dir := d, rxq := List.replicate n 0x00#8 }

theorem witness_WireRxDeliversOneByte :
    ((arriving true 0).sched = .wireRx :: [] ∧ (arriving true 0).busq = 0x55#8 :: [] ∧ (arriving true 0).dir = true) ∧
    ((arriving false 32).dir = false ∧ (arriving false 32).rxq.length = (arriving false 32).cfg.rxFifoDepth) ∧
    ((arriving false 31).dir = false ∧ (arriving false 31).rxq.length ≠ (arriving false 31).cfg.rxFifoDepth) := by decide

theorem witness_WireTxAndClockSteps :
    (∃ s : State, s.sched = .wireTx :: [] ∧ s.txq = 0x98#8 :: []) ∧ (∃ s : State, s.sched = .wireTx :: [] ∧ s.txq = []) ∧
      ∃ s : State, s.sched = .clock :: [] ∧ s.nowMs = 0xFFFFFFFF#32 :=
  ⟨⟨{ staged with sched := [.wireTx], txq := [0x98#8] }, rfl, rfl⟩, ⟨{ staged with sched := [.wireTx] }, rfl, rfl⟩,
    ⟨{ staged with sched := [.clock], nowMs := 0xFFFFFFFF#32 }, rfl, rfl⟩⟩

theorem witness_ResetStepClearsTheBlock : ({ keyed with sched := [.rst] } : State).sched = .rst :: [] := rfl

theorem witness_ResetRegistersReadAsTheMapSays : 0x1FF < 0x200 ∧ 0x1FF / 4 ≠ 5 ∧ 0x010 < 0x200 ∧ 0x010 / 4 ≠ 5 := by
  decide

/-- A read, and the boundaries of the offsets: RESULT, the last counter's gap, both windows and both reserved ranges. -/
theorem witness_HostReadsTheRegisterMap (a : Word) :
    (∃ s : State, s.sched = .host :: [] ∧ s.maint = false ∧ s.hostq = .read a :: []) ∧
    (0x00B#32).toNat / 4 = 2 ∧ (0x020#32).toNat / 4 = 8 + 0 ∧ (0x03F#32).toNat / 4 = 8 + 7 ∧ (0x07F#32).toNat / 4 = 31 ∧ (0x088#32).toNat / 4 = 34 + 0 ∧
    (0x0C7#32).toNat / 4 = 34 + 15 ∧ (0x0C8#32).toNat / 4 = 50 ∧ (0x0FF#32).toNat / 4 = 63 ∧
    (0x104#32).toNat / 4 = 65 + 0 ∧ (0x143#32).toNat / 4 = 65 + 15 ∧ (0x144#32).toNat / 4 = 81 ∧
    (0x1FF#32).toNat / 4 = 127 :=
  ⟨⟨{ keyed with sched := [.host], hostq := [.read a] }, rfl, rfl, rfl⟩, by decide⟩

theorem witness_WindowsShowTheHeads :
    keyed.respq = [] ∧ keyed.rawq = [] ∧
    (∃ s : State, s.respq = { id := 0x80#8, command := 0x30#8, address := 4#16, resp := responseFrame } :: [] ∧
      responseFrame.length ≤ 64) ∧
    ∃ s : State, s.rawq = { bytes := ledFrame, kind := .led, chkOk := true, matched := false } :: [] ∧
      ledFrame.length ≤ 64 :=
  ⟨rfl, rfl,
    ⟨{ keyed with respq := [{ id := 0x80#8, command := 0x30#8, address := 4#16, resp := responseFrame }] }, rfl, by decide⟩,
    ⟨{ keyed with rawq := [{ bytes := ledFrame, kind := .led, chkOk := true, matched := false }] }, rfl, by decide⟩⟩

/-- A HOST write of all ones, for each offset class at a boundary. -/
theorem witness_HostWritesOnlyTheWritableRegisters (a : Word) :
    (∃ s : State, s.sched = .host :: [] ∧ s.maint = false ∧ s.hostq = .write a 0xFFFFFFFF#32 :: []) ∧
    (0x003#32).toNat / 4 = 0 ∧ (0x018#32).toNat / 4 = 6 ∧ (0x01C#32).toNat / 4 = 7 ∧ (0x020#32).toNat / 4 = 8 + 0 ∧
    (0x03F#32).toNat / 4 = 8 + 7 ∧ (0x004#32).toNat / 4 ∈ [1, 2, 4, 5] ∧ 16 ≤ (0x040#32).toNat / 4 ∧
    (0x1FF#32).toNat / 4 < 128 ∧ 128 ≤ (0x200#32).toNat / 4 :=
  ⟨⟨{ keyed with sched := [.host], hostq := [.write a 0xFFFFFFFF#32] }, rfl, rfl, rfl⟩, by decide⟩

/-- A state in the middle of a transmission, whose next step is WIRE_TX's. -/
def mid : State :=
  { keyed with eng := .tx, dir := true, txbuf := [0x98#8, 0xFF#8], txIdx := 1, txq := [0x98#8], sched := [.wireTx] }

theorem mid_ids : IdsInv mid := ⟨by decide, by decide, by decide⟩

theorem mid_turnaround : TurnaroundInv mid :=
  ⟨by unfold State.sending; decide, by unfold State.sending; decide, by decide, by decide⟩

theorem mid_steps : ∃ t, step mid = .next t ∧ t.txlog = [0x98#8] ∧ t.slots = mid.slots := ⟨_, rfl, rfl, rfl⟩

theorem witness_EngineMovesOnlyAsListed : ∃ t, step mid = .next t := ⟨_, rfl⟩

theorem witness_BusLogOnlyGrows : ∃ t, step mid = .next t ∧ t.txlog ≠ mid.txlog := ⟨_, rfl, by decide⟩

theorem witness_TransmissionIsNeverAltered :
    mid.sending ∧ mid.sched.head? ≠ some .rst ∧ ∃ t, step mid = .next t := ⟨.inl rfl, by decide, _, rfl⟩

theorem witness_NothingIsReceivedWhileSending : mid.sending ∧ mid.dir = true ∧ ∃ t, step mid = .next t :=
  ⟨.inl rfl, rfl, _, rfl⟩

theorem witness_ParametersAndClockAreOutsideTheBlock : ∃ t, step State.reset = .next t ∧ t.nowMs = 1#32 := ⟨_, rfl, rfl⟩

theorem witness_NoEventStopsTheMachine : TurnaroundInv mid := mid_turnaround

/-- An EXPIRE that retries the entry: the same id before and after. -/
def aging : State := { keyed with nowMs := 100#32, sched := [.host], hostq := [.write 0x00C#32 2#32] }

theorem aging_registry : RegistryInv aging := by
  refine ⟨by decide, fun e he => ?_, by decide, by decide⟩
  have : e = ramEntry 0x80#8 true [] := by simpa [aging, keyed, one] using he
  subst this
  exact ⟨by decide, .inl rfl, by decide, by decide, by decide⟩

theorem witness_EntriesAgeMonotonically :
    IdsInv aging ∧ RegistryInv aging ∧
    ∃ t, step aging = .next t ∧ ∃ e ∈ aging.slots, ∃ e' ∈ t.slots, e.id = e'.id ∧ e'.resend = 1#8 :=
  ⟨⟨by decide, by decide, by decide⟩, aging_registry, _, rfl, by decide⟩

/-- The ENGINE's intake of the terminator of a SYNC, with an unsent entry. -/
def releasing : State :=
  { one (ramEntry 0x80#8 false []) with sched := [.engine], rxq := [0xFF#8], rxbuf := syncFrame1.dropLast }

theorem witness_OnlyTheArbiterMarksAnEntrySent :
    ∃ t, step releasing = .next t ∧ t.eng = .tx ∧ ∃ e ∈ t.slots, e.isSent = true := ⟨_, rfl, by decide, by decide⟩

theorem witness_StepKeepsIdsUnique : IdsInv mid ∧ ∃ t, step mid = .next t := ⟨mid_ids, _, rfl⟩

theorem witness_StepKeepsRegistryEntries : RegistryInv mid ∧ ∃ t, step mid = .next t := by
  refine ⟨⟨by decide, fun e he => ?_, by decide, by decide⟩, _, rfl⟩
  have : e = ramEntry 0x80#8 true [] := by simpa [mid, keyed, one] using he
  subst this
  exact ⟨by decide, .inl rfl, by decide, by decide, by decide⟩

theorem witness_StepKeepsCapacities : CapacityInv mid ∧ ∃ t, step mid = .next t :=
  ⟨⟨by decide, by decide, by decide, by decide, by decide⟩, _, rfl⟩

theorem witness_StepKeepsTurnaround : TurnaroundInv mid ∧ ∃ t, step mid = .next t := ⟨mid_turnaround, _, rfl⟩

theorem witness_StepKeepsReservedBitsZero : HostRegInv mid ∧ ∃ t, step mid = .next t :=
  ⟨⟨by decide, by decide, by decide⟩, _, rfl⟩

/-- An element in each output FIFO, at the least length of a response, and a HARVEST to come. -/
def delivering : State :=
  { aging with
    hostq := [.write 0x00C#32 3#32]
    respq := [{ id := 0x90#8, command := 0x30#8, address := 4#16, resp := responseMinFrame }]
    rawq := [{ bytes := ledFrame, kind := .led, chkOk := true, matched := false }] }

theorem witness_StepKeepsFifoElements :
    RegistryInv delivering ∧ FifoElementsInv delivering ∧ ∃ t, step delivering = .next t :=
  ⟨⟨aging_registry.cfgValid, aging_registry.entries, aging_registry.rxbufShort, aging_registry.rxbufOpen⟩,
    ⟨by decide, by decide⟩, _, rfl⟩

/-- V-REG-8: five answered entries, and room for four responses. -/
def answeredFive : State :=
  { State.reset with
    slots := [0x80#8, 0x81#8, 0x82#8, 0x83#8, 0x84#8].map fun id => ramEntry id true responseFrame }

/-- V-REG-8: the order of `respq`, the entry that stalls, and RESULT. -/
theorem witness_HarvestScansInIndexOrder :
    answeredFive.respq.length ≤ answeredFive.cfg.respFifoDepth ∧
    nextIs (exec .harvest answeredFive) (fun t =>
      t.respq.map RespRec.id == [0x80#8, 0x84#8, 0x83#8, 0x82#8] && t.slots.map Entry.id == [0x81#8] &&
        t.result == 0x04000000#32) = true := by decide

/-- The very next step after a table word is placed runs its instruction: EXPIRE, a SYNC, and a payload command. -/
theorem test_placed_words_run :
    nextIs (step (State.reset.withFetchWord 32 0x00000007)) (fun t => t.hostq == [] && t.result == 0#32) = true ∧
    nextIs (step (State.reset.withFetchWord 16 0xFD55)) (fun t => t.counters.sync == 1#32 && t.rxq == []) = true ∧
    nextIs (step (State.reset.withFetchWord 8 0x3F)) (fun t => t.slots.map Entry.command == [0x3F#8]) = true := by decide

end Sys2Proof.Tests
end

section
/-! SUPPORT. A step as the effect of the agent that moves (R8), and the frames of the operations the agents share. -/

namespace Sys2Proof.Machine

/-- The agent that moves next: the head of the schedule, or the default one when the schedule is empty (log 1). -/
def State.NextAgent (s : State) (a : Agent) : Prop :=
  s.sched.head? = some a ∨ (s.sched = [] ∧ s.defaultAgent = a)

/-- A step is the effect of the next agent on the state without its turn in the schedule. -/
theorem step_agentEffect {s t : State} (h : step s = .next t) :
    ∃ a, s.NextAgent a ∧ AgentEffect { s with sched := s.sched.tail } a t := by
  rcases step_effect h with ⟨a, rest, hs, ha⟩ | ⟨hs, ha⟩
  · exact ⟨a, .inl (by simp [hs]), by simpa [hs] using ha⟩
  · refine ⟨_, .inr ⟨hs, rfl⟩, ?_⟩
    rw [hs, List.tail_nil, ← hs]
    exact ha

/-- An invariant that does not speak of the schedule is kept by every step when every agent's effect keeps it. -/
theorem step_keeps {P : State → Prop} (hsched : ∀ (s : State) (l : List Agent), P s → P { s with sched := l })
    (hagent : ∀ {s t : State} {a : Agent}, P s → AgentEffect s a t → P t) {s t : State} (hs : P s)
    (h : step s = .next t) : P t := by
  obtain ⟨a, -, ha⟩ := step_agentEffect h
  exact hagent (hsched s _ hs) ha

/-- The reset input moves only when it is scheduled. -/
theorem State.defaultAgent_ne_rst (s : State) : s.defaultAgent ≠ .rst := by
  unfold State.defaultAgent
  split_ifs <;> simp

theorem State.NextAgent.rst_scheduled {s : State} (h : s.NextAgent .rst) : s.sched.head? = some .rst :=
  h.resolve_right fun hd => s.defaultAgent_ne_rst hd.2

/-- The second step of MAINTAIN changes the registry, `respq`, the counters, RESULT and its own mark, nothing else. -/
theorem State.maintainFinish_frame (s : State) :
    s.maintainFinish = { s with
      slots := s.maintainFinish.slots
      respq := s.maintainFinish.respq
      counters := s.maintainFinish.counters
      result := s.maintainFinish.result
      maint := s.maintainFinish.maint } := by
  unfold State.maintainFinish
  simp only
  rw [s.harvest_frame]

/-- A HOST read changes the word read and the count of free values, nothing else (R66). -/
theorem State.hostRead_frame (s : State) (addr : Word) :
    s.hostRead addr = { s with rdata := (s.hostRead addr).rdata, freeCtr := (s.hostRead addr).freeCtr } := by
  unfold State.hostRead
  split <;> rfl

/-- A received byte changes `rxq` or a counter, nothing else (R171). -/
theorem State.wireRxStep_frame (s : State) (b : Byte) :
    s.wireRxStep b = { s with rxq := (s.wireRxStep b).rxq, counters := (s.wireRxStep b).counters } := by
  unfold State.wireRxStep
  split_ifs <;> rfl

end Sys2Proof.Machine
end

section
/-! SUPPORT. The transmit side of the state (R21, R25 to R28), and every way a step can move it. -/

namespace Sys2Proof.Machine

/-- The registers a transmission goes through. -/
structure TxSide where
  eng : Eng
  dir : Bool
  txq : List Byte
  txbuf : List Byte
  txIdx : Nat
  txlog : List Byte

/-- The transmit side of a state. -/
def State.txSide (s : State) : TxSide where
  eng := s.eng
  dir := s.dir
  txq := s.txq
  txbuf := s.txbuf
  txIdx := s.txIdx
  txlog := s.txlog

/-- What one step of an agent can do to the transmit side: the ENGINE's transitions of R22, the byte WIRE_TX takes (R259),
and the reset (R350, R351). -/
inductive TxMove (l : TxSide) : Agent → TxSide → Prop where
  | same (a : Agent) : TxMove l a l
  | pause (he : l.eng = .rx) : TxMove l .engine { l with eng := .paused }
  | unpause (he : l.eng = .paused) : TxMove l .engine { l with eng := .resume }
  | resume (he : l.eng = .resume) (hq : l.txq = []) : TxMove l .engine { l with eng := .rx }
  | release (f : List Byte) (he : l.eng = .rx) (hf : 0 < f.length) :
    TxMove l .engine { l with eng := .tx, dir := true, txbuf := f, txIdx := 0 }
  | push (b : Byte) (he : l.eng = .tx) (hb : l.txbuf[l.txIdx]? = some b) :
    TxMove l .engine { l with
      txq := l.txq ++ [b]
      txIdx := l.txIdx + 1
      eng := if l.txIdx + 1 = l.txbuf.length then .flush else .tx }
  | flush (he : l.eng = .flush) (hq : l.txq = []) : TxMove l .engine { l with dir := false, eng := .rx }
  | bus (b : Byte) (q : List Byte) (hq : l.txq = b :: q) :
    TxMove l .wireTx { l with txq := q, txlog := l.txlog ++ [b] }
  | reset : TxMove l .rst { eng := .rx, dir := false, txq := [], txbuf := [], txIdx := 0, txlog := l.txlog }

@[simp] theorem State.bump_txSide (s : State) (c : Counter) : (s.bump c).txSide = s.txSide := rfl

@[simp] theorem State.finishFrame_txSide (s : State) (k : Kind) (r : List Byte) (m : Bool) :
    (s.finishFrame k r m).txSide = s.txSide := by rw [s.finishFrame_frame]; rfl

theorem CmdEffect.txSide {s t : State} (h : CmdEffect s t) : t.txSide = s.txSide := by rw [h.frame]; rfl

/-- The arbiter, run in RX, releases a frame or leaves the transmit side alone (R250 to R253). -/
theorem State.arbitrate_txMove (s : State) (fnr : Byte) (he : s.eng = .rx) :
    TxMove s.txSide .engine (s.arbitrate fnr).txSide := by
  rcases s.arbitrate_cases fnr with ⟨-, h⟩ | ⟨i, e, -, -, h⟩ <;> rw [h]
  · exact .same _
  · exact .release _ he (buildFrame_pos _ _)

theorem FrameEffect.txMove {r : List Byte} {s t : State} (h : FrameEffect r s t) (he : s.eng = .rx) :
    TxMove s.txSide .engine t.txSide := by
  cases h with
  | record k => rw [s.finishFrame_txSide]; exact .same _
  | discard k c => rw [State.bump_txSide, s.finishFrame_txSide]; exact .same _
  | sync fnr =>
    have hm := State.arbitrate_txMove ((s.finishFrame .sync r false).bump .sync) fnr (by simpa using he)
    rwa [State.bump_txSide, s.finishFrame_txSide] at hm
  | response _ =>
    rw [State.finishFrame_txSide, s.matchResponse_frame]
    exact .same _

/-- Every agent's effect is one of the moves of the transmit side. -/
theorem AgentEffect.txMove {s t : State} {a : Agent} (h : AgentEffect s a t) : TxMove s.txSide a t.txSide := by
  cases h with
  | idle => exact .same _
  | pause he => exact .pause he
  | byte => exact .same _
  | overflow => exact .same _
  | frame q t he _ _ ht => exact ht.txMove he
  | tx b he _ hb => exact .push b he hb
  | flush he hq => exact .flush he hq
  | unpause he => exact .unpause he
  | resume he hq => exact .resume he hq
  | finish => rw [s.maintainFinish_frame]; exact .same _
  | command op q t _ _ ht => rw [ht.txSide]; exact .same _
  | read => rw [State.hostRead_frame]; exact .same _
  | write => rw [State.hostWrite_frame]; exact .same _
  | request => rw [State.runRequest_frame]; exact .same _
  | wireRx => rw [State.wireRxStep_frame]; exact .same _
  | wireTx b q hq => exact .bus b q hq
  | clock => exact .same _
  | rst => exact .reset

/-- Every step is a move of the transmit side by the next agent. -/
theorem step_txMove {s t : State} (h : step s = .next t) : ∃ a, s.NextAgent a ∧ TxMove s.txSide a t.txSide := by
  obtain ⟨a, ha, he⟩ := step_agentEffect h
  exact ⟨a, ha, he.txMove⟩

end Sys2Proof.Machine
end

section
/-! PROOFS. The ENGINE's transitions (R22), the bus log (R28), and the turnaround (R261). -/

namespace Sys2Proof.Machine

/-- The ENGINE moves as R22 lists, or the mover is the reset input. -/
theorem TxMove.mem_engMoves {l l' : TxSide} {a : Agent} (h : TxMove l a l') :
    (l.eng, l'.eng) ∈ engMoves ∨ (a = .rst ∧ l'.eng = .rx) := by
  have stays : ∀ e : Eng, (e, e) ∈ engMoves := fun e => by cases e <;> decide
  cases h with
  | same => exact .inl (stays _)
  | pause he => simp [he, engMoves]
  | unpause he => simp [he, engMoves]
  | resume he => simp [he, engMoves]
  | release f he => simp [he, engMoves]
  | push b he => simp only [he]; split <;> simp [engMoves]
  | flush he => simp [he, engMoves]
  | bus => exact .inl (stays _)
  | reset => exact .inr ⟨rfl, rfl⟩

/-- Settles O43, by cases on the moves of the transmit side. -/
theorem engineMovesOnlyAsListed : Obligations.EngineMovesOnlyAsListed := by
  intro s t h
  obtain ⟨a, ha, hm⟩ := step_txMove h
  rcases hm.mem_engMoves with hlist | ⟨rfl, heng⟩
  · exact .inl hlist
  · exact .inr ⟨ha.rst_scheduled, heng⟩

/-- The bus log stays, or takes the head of `txq` (R28, R259). -/
theorem TxMove.txlog_grows {l l' : TxSide} {a : Agent} (h : TxMove l a l') :
    l'.txlog = l.txlog ∨ ∃ b q, l.txq = b :: q ∧ l'.txq = q ∧ l'.txlog = l.txlog ++ [b] := by
  cases h with
  | bus b q hq => exact .inr ⟨b, q, hq, rfl, rfl⟩
  | _ => exact .inl rfl

/-- Settles O44: only WIRE_TX's move touches the bus log. -/
theorem busLogOnlyGrows : Obligations.BusLogOnlyGrows := by
  intro s t h
  obtain ⟨a, -, hm⟩ := step_txMove h
  exact hm.txlog_grows

/-- `TurnaroundInv`, as a property of the transmit side. -/
structure TxSide.InOrder (l : TxSide) : Prop where
  dirIffSending : l.dir = true ↔ (l.eng = .tx ∨ l.eng = .flush)
  quietWhenReceiving : ¬ (l.eng = .tx ∨ l.eng = .flush) → l.txq = []
  txIdxInFrame : l.eng = .tx → l.txIdx < l.txbuf.length
  flushAtEnd : l.eng = .flush → l.txIdx = l.txbuf.length

theorem turnaroundInv_iff (s : State) : TurnaroundInv s ↔ s.txSide.InOrder :=
  ⟨fun h => ⟨h.dirIffSending, h.quietWhenReceiving, h.txIdxInFrame, h.flushAtEnd⟩,
    fun h => ⟨h.dirIffSending, h.quietWhenReceiving, h.txIdxInFrame, h.flushAtEnd⟩⟩

/-- Outside TX and FLUSH the turnaround is in order exactly when DIR is 0 and `txq` is empty (R27, R261). -/
theorem TxSide.inOrder_of_receiving {l : TxSide} (he : ¬ (l.eng = .tx ∨ l.eng = .flush)) :
    l.InOrder ↔ l.dir = false ∧ l.txq = [] := by
  obtain ⟨htx, hflush⟩ := not_or.1 he
  constructor
  · intro h
    exact ⟨Bool.eq_false_iff.2 fun hd => he (h.dirIffSending.1 hd), h.quietWhenReceiving he⟩
  · rintro ⟨hd, hq⟩
    exact ⟨by simp [hd, he], fun _ => hq, fun h => absurd h htx, fun h => absurd h hflush⟩

/-- A change between RX, PAUSED and RESUME keeps the turnaround in order. -/
theorem TxSide.InOrder.changeReceiving {l : TxSide} {e : Eng} (h : l.InOrder) (he : ¬ (l.eng = .tx ∨ l.eng = .flush))
    (he' : ¬ (e = .tx ∨ e = .flush)) : TxSide.InOrder { l with eng := e } :=
  (TxSide.inOrder_of_receiving he').2 ((TxSide.inOrder_of_receiving he).1 h)

/-- Every move of the transmit side keeps the turnaround in order. -/
theorem TxMove.keeps_inOrder {l l' : TxSide} {a : Agent} (h : TxMove l a l') (hl : l.InOrder) : l'.InOrder := by
  cases h with
  | same => exact hl
  | pause he => exact hl.changeReceiving (by simp [he]) (by simp)
  | unpause he => exact hl.changeReceiving (by simp [he]) (by simp)
  | resume he => exact hl.changeReceiving (by simp [he]) (by simp)
  | release f he hf => exact ⟨by simp, by simp, fun _ => hf, by simp⟩
  | push b he hb =>
    have hdir : l.dir = true := hl.dirIffSending.2 (.inl he)
    have hidx : l.txIdx < l.txbuf.length := hl.txIdxInFrame he
    by_cases hend : l.txIdx + 1 = l.txbuf.length
    · rw [if_pos hend]
      exact ⟨by simp [hdir], by simp, by simp, fun _ => hend⟩
    · rw [if_neg hend]
      exact ⟨by simp [hdir], by simp, fun _ => Nat.lt_of_le_of_ne hidx hend, by simp⟩
  | flush he hq => exact (TxSide.inOrder_of_receiving (by simp)).2 ⟨rfl, hq⟩
  | bus b q hq =>
    have hsending : l.eng = .tx ∨ l.eng = .flush := by
      by_contra he
      simp [hl.quietWhenReceiving he] at hq
    exact ⟨hl.dirIffSending, fun he => absurd hsending he, hl.txIdxInFrame, hl.flushAtEnd⟩
  | reset => exact (TxSide.inOrder_of_receiving (by simp)).2 ⟨rfl, rfl⟩

/-- Settles O55, by cases on the moves of the transmit side. -/
theorem stepKeepsTurnaround : Obligations.StepKeepsTurnaround := by
  intro s t hs h
  obtain ⟨a, -, hm⟩ := step_txMove h
  exact (turnaroundInv_iff t).2 (hm.keeps_inOrder ((turnaroundInv_iff s).1 hs))

end Sys2Proof.Machine
end

section
/-! PROOFS. The parameters and the clock (R41, R42, R351). -/

namespace Sys2Proof.Machine

/-- What lies outside the block (R351): the parameters and the clock. -/
def State.outside (s : State) : Config × Word := (s.cfg, s.nowMs)

/-- Only the CLOCK's effect reaches outside the block, and it adds 1 to the clock (R42). -/
theorem AgentEffect.outside {s t : State} {a : Agent} (h : AgentEffect s a t) :
    t.outside = s.outside ∨ (a = .clock ∧ t.outside = (s.cfg, s.nowMs + 1#32)) := by
  cases h with
  | frame q t _ _ _ ht => rw [ht.frame]; exact .inl rfl
  | finish => rw [s.maintainFinish_frame]; exact .inl rfl
  | command op q t _ _ ht => rw [ht.frame]; exact .inl rfl
  | read => rw [State.hostRead_frame]; exact .inl rfl
  | write => rw [State.hostWrite_frame]; exact .inl rfl
  | request => rw [State.runRequest_frame]; exact .inl rfl
  | wireRx => rw [State.wireRxStep_frame]; exact .inl rfl
  | clock => exact .inr ⟨rfl, rfl⟩
  | _ => exact .inl rfl

/-- Settles O47, by cases on the agents' effects. -/
theorem parametersAndClockAreOutsideTheBlock : Obligations.ParametersAndClockAreOutsideTheBlock := by
  intro s t h
  obtain ⟨a, ha, he⟩ := step_agentEffect h
  rcases he.outside with ho | ⟨rfl, ho⟩
  · obtain ⟨hcfg, hnow⟩ := Prod.mk.inj ho
    exact ⟨hcfg, .inl hnow⟩
  · obtain ⟨hcfg, hnow⟩ := Prod.mk.inj ho
    exact ⟨hcfg, .inr ⟨hnow, ha⟩⟩

end Sys2Proof.Machine
end

section
/-! PROOFS. The capacities (R24, R25, R30, R34, R35): each operation that appends does so below its capacity. -/

namespace Sys2Proof.Machine

theorem CapacityInv.retryOrDrop {s : State} (h : CapacityInv s) (i : Nat) (e : Entry) (cause : RetryCause) :
    CapacityInv (s.retryOrDrop i e cause).2 := by
  rcases s.retryOrDrop_cases i e cause with ⟨-, heq⟩ | ⟨-, c, -, heq⟩ <;> rw [heq]
  · exact { h with slots := by rw [swapRemove_length]; exact (Nat.sub_le ..).trans h.slots }
  · exact { h with slots := by rw [List.length_set]; exact h.slots }

theorem CapacityInv.expire {s : State} (h : CapacityInv s) : CapacityInv s.expire.2 :=
  State.expireFrom_induct CapacityInv (fun _ i e ht _ _ => ht.retryOrDrop i e .timeout) _ _ _ s h

/-- An emitted response leaves the registry and joins a `respq` that is not full (R220). -/
theorem CapacityInv.emit {s : State} (h : CapacityInv s) (i : Nat) (e : Entry)
    (hq : s.respq.length ≠ s.cfg.respFifoDepth) :
    CapacityInv (State.remove { s with respq := s.respq ++ [e.respRec] } i) := by
  have hslots := h.slots
  have hresp := h.respq
  exact { h with
    slots := by simp only [State.remove, swapRemove_length]; omega
    respq := by simp only [State.remove, List.length_append, List.length_singleton]; omega }

theorem CapacityInv.harvest {s : State} (h : CapacityInv s) : CapacityInv s.harvest.2 :=
  State.harvestFrom_induct CapacityInv (fun _ ht => { ht with })
    (fun _ i e ht _ _ hq => ht.emit i e hq) (fun _ i e ht _ _ _ => ht.retryOrDrop i e .mismatch) _ _ _ s h

/-- ENQUEUE replaces an entry, or appends one below FIFO_SIZE (R214). -/
theorem CapacityInv.enqueueCommand {s : State} (h : CapacityInv s) (c : Bool) : CapacityInv (s.enqueueCommand c) := by
  rcases s.enqueueCommand_cases c with ⟨-, heq⟩ | ⟨-, -, heq⟩ | ⟨id, -, -, heq⟩
  · rw [heq]; exact { h with }
  · rw [heq]; exact { h with }
  · rcases s.enqueueAs_cases c id with ⟨i, -, -, heq'⟩ | ⟨-, hroom, heq'⟩ | ⟨-, -, heq'⟩ <;> rw [heq, heq']
    · exact { h with slots := by rw [List.length_set]; exact h.slots }
    · exact { h with slots := by rw [List.length_append, List.length_singleton]; exact hroom }
    · exact { h with }

theorem CapacityInv.command {s t : State} (h : CapacityInv s) (ht : CmdEffect s t) : CapacityInv t := by
  cases ht with
  | result w => exact { h with }
  | clear => exact { h with }
  | enqueue c => exact h.enqueueCommand c
  | expire w => exact { h.expire with }
  | maintain => exact { h.expire with }
  | harvest w => exact { h.harvest with }
  | popResp e q hq => exact { h with respq := by have := h.respq; rw [hq] at this; exact Nat.le_of_succ_le this }
  | popRaw f q hq => exact { h with rawq := by have := h.rawq; rw [hq] at this; exact Nat.le_of_succ_le this }

/-- A completed frame joins a `rawq` that is not full (R181), and leaves `rxbuf` empty. -/
theorem CapacityInv.finishFrame {s : State} (h : CapacityInv s) (k : Kind) (r : List Byte) (m : Bool) :
    CapacityInv (s.finishFrame k r m) := by
  have hraw : (s.finishFrame k r m).rawq.length ≤ s.cfg.rawFifoDepth := by
    have := h.rawq
    rw [State.finishFrame_rawq]
    split_ifs
    · exact this
    · simp only [List.length_append, List.length_singleton]; omega
  rw [s.finishFrame_frame]
  exact { h with rawq := hraw }

theorem CapacityInv.matchResponse {s : State} (h : CapacityInv s) (d : List Byte) :
    CapacityInv (s.matchResponse d).2 := by
  rcases s.matchResponse_cases d with ⟨i, -, heq⟩ | ⟨-, heq⟩ <;> rw [heq]
  · exact { h with slots := by simpa using h.slots }
  · exact { h with }

/-- The arbiter marks an entry or removes it (R252). -/
theorem CapacityInv.arbitrate {s : State} (h : CapacityInv s) (fnr : Byte) : CapacityInv (s.arbitrate fnr) := by
  rcases s.arbitrate_cases fnr with ⟨-, heq⟩ | ⟨i, e, -, -, heq⟩ <;> rw [heq]
  · exact h
  · have hslots : (s.markSent i e).length ≤ s.cfg.fifoSize := by
      have := h.slots
      unfold State.markSent
      split <;> simp only [swapRemove_length, List.length_set] <;> omega
    exact { h with slots := hslots }

theorem CapacityInv.frame {r : List Byte} {s t : State} (h : CapacityInv s) (ht : FrameEffect r s t) :
    CapacityInv t := by
  cases ht with
  | record k => exact h.finishFrame k r false
  | discard k c => exact { h.finishFrame k r false with }
  | sync fnr =>
    have hsync : CapacityInv ((s.finishFrame .sync r false).bump .sync) := { h.finishFrame .sync r false with }
    exact hsync.arbitrate fnr
  | response _ => exact (h.matchResponse _).finishFrame _ _ _

theorem CapacityInv.runRequest {s : State} (h : CapacityInv s) (q : Request) : CapacityInv (s.runRequest q) := by
  have hstage : CapacityInv (s.stage q) := by rw [s.stage_frame]; exact { h with }
  exact hstage.enqueueCommand q.coalesce

/-- A received byte joins an `rxq` that is not full (R171). -/
theorem CapacityInv.wireRxStep {s : State} (h : CapacityInv s) (b : Byte) : CapacityInv (s.wireRxStep b) := by
  unfold State.wireRxStep
  split_ifs with hdir hfull
  · exact h
  · exact { h with }
  · have hrxq := h.rxq
    exact { h with rxq := by simp only [List.length_append, List.length_singleton]; omega }

/-- Taking a byte from `rxq` keeps the capacities. -/
theorem CapacityInv.takeRxq {s : State} (h : CapacityInv s) {b : Byte} {q : List Byte} (hq : s.rxq = b :: q) :
    CapacityInv { s with rxq := q } :=
  { h with rxq := by have := h.rxq; rw [hq] at this; exact Nat.le_of_succ_le this }

theorem CapacityInv.agent {s t : State} {a : Agent} (h : CapacityInv s) (ha : AgentEffect s a t) : CapacityInv t := by
  cases ha with
  | byte b q _ _ hq => exact { h.takeRxq hq with }
  | overflow b q _ _ hq => exact { h.takeRxq hq with }
  | frame q t _ _ hq ht =>
    have hbuf : CapacityInv { s with rxq := q, rxbuf := s.rxbuf ++ [endOfFrame] } := { h.takeRxq hq with }
    exact hbuf.frame ht
  | tx b _ hq => exact { h with txq := by rw [List.length_append, List.length_singleton]; exact hq }
  | finish => exact { h.harvest with }
  | command op q t _ _ ht =>
    have hpop : CapacityInv { s with hostq := q } := { h with }
    exact hpop.command ht
  | read a q => rw [State.hostRead_frame]; exact { h with }
  | write a w q => rw [State.hostWrite_frame]; exact { h with }
  | request p q =>
    have hpop : CapacityInv { s with hostq := q } := { h with }
    exact hpop.runRequest p
  | wireRx b q =>
    have hpop : CapacityInv { s with busq := q } := { h with }
    exact hpop.wireRxStep b
  | wireTx b q hq => exact { h with txq := by have := h.txq; rw [hq] at this; exact Nat.le_of_succ_le this }
  | rst =>
    exact { rxq := Nat.zero_le _, txq := Nat.zero_le _, slots := Nat.zero_le _, respq := Nat.zero_le _,
            rawq := Nat.zero_le _ }
  | _ => exact { h with }

/-- Settles O54, by cases on the agents' effects. -/
theorem stepKeepsCapacities : Obligations.StepKeepsCapacities :=
  fun _ _ hs h => step_keeps (fun _ _ h => { h with }) CapacityInv.agent hs h

end Sys2Proof.Machine
end

section
/-! PROOFS. The reserved bits of the stored host registers (R36, R37, R65). -/

namespace Sys2Proof.Machine

/-- A word stored under a mask has no bit of a disjoint mask. -/
theorem masked_and_disjoint (w : Word) {m r : Word} (h : m &&& r = 0#32) : w &&& m &&& r = 0#32 := by
  rw [BitVec.and_assoc, h, BitVec.and_zero]

theorem HostRegInv.writeReg {s : State} (h : HostRegInv s) (r : Reg) (w : Word) : HostRegInv (s.writeReg r w) := by
  cases r with
  | ctrl => exact { h with ctrl := masked_and_disjoint w (by decide) }
  | enqDesc0 => exact { h with enqDesc0 := masked_and_disjoint w (by decide) }
  | enqDesc1 => exact { h with enqDesc1 := masked_and_disjoint w (by decide) }
  | _ => exact { h with }

theorem HostRegInv.hostWrite {s : State} (h : HostRegInv s) (addr w : Word) : HostRegInv (s.hostWrite addr w) := by
  unfold State.hostWrite
  split
  · exact h.writeReg _ _
  · exact h

theorem HostRegInv.stage {s : State} (h : HostRegInv s) (q : Request) : HostRegInv (s.stage q) := by
  unfold State.stage
  generalize requestWrites q = l
  induction l generalizing s with
  | nil => exact h
  | cons p l ih => exact ih (h.hostWrite p.1 p.2)

theorem HostRegInv.runRequest {s : State} (h : HostRegInv s) (q : Request) : HostRegInv (s.runRequest q) := by
  unfold State.runRequest
  rw [State.enqueueCommand_frame]
  exact { h.stage q with }

theorem HostRegInv.agent {s t : State} {a : Agent} (h : HostRegInv s) (ha : AgentEffect s a t) : HostRegInv t := by
  cases ha with
  | frame q t _ _ _ ht => rw [ht.frame]; exact { h with }
  | finish => rw [s.maintainFinish_frame]; exact { h with }
  | command op q t _ _ ht => rw [ht.frame]; exact { h with }
  | read a q => rw [State.hostRead_frame]; exact { h with }
  | write a w q =>
    have hpop : HostRegInv { s with hostq := q } := { h with }
    exact hpop.hostWrite a w
  | request p q =>
    have hpop : HostRegInv { s with hostq := q } := { h with }
    exact hpop.runRequest p
  | wireRx b q => rw [State.wireRxStep_frame]; exact { h with }
  | rst => exact ⟨BitVec.zero_and, BitVec.zero_and, BitVec.zero_and⟩
  | _ => exact { h with }

/-- Settles O56, by cases on the agents' effects. -/
theorem stepKeepsReservedBitsZero : Obligations.StepKeepsReservedBitsZero :=
  fun _ _ hs h => step_keeps (fun _ _ h => { h with }) HostRegInv.agent hs h

end Sys2Proof.Machine
end

section
/-! PROOFS. The HOST's reads (R61, R64 to R66): the register map, STATUS, and the step. -/

namespace Sys2Proof.Machine

/-! The register map by word index. -/

/-- The registers that stand alone in the map, each at its word index. -/
def namedRegs : List (Nat × Reg) :=
  [(0, .ctrl), (1, .status), (2, .result), (3, .cmd), (4, .idCtr), (5, .nowMs), (6, .enqDesc0), (7, .enqDesc1),
    (16, .cnt .frame), (17, .cnt .sync), (18, .cnt .tx), (19, .cnt .rxqOvr), (20, .cnt .rxbufOvf),
    (21, .cnt .badStart), (22, .cnt .badType), (23, .cnt .short), (24, .cnt .chkFail), (25, .cnt .unmatched),
    (26, .cnt .rawDrop), (27, .cnt .retryMismatch), (28, .cnt .retryTimeout), (29, .cnt .drop),
    (30, .cnt .respStall), (31, .reserved), (32, .respHdr), (33, .respAddr), (64, .rawHdr)]

theorem regOfIndex_named : ∀ p ∈ namedRegs, p.1 < 128 ∧ regOfIndex p.1 = p.2 := by decide

theorem regOfIndex_enqPayload (k : Fin 8) : regOfIndex (8 + k) = .enqPayload k := by revert k; decide

theorem regOfIndex_respBytes (k : Fin 16) : regOfIndex (34 + k) = .respBytes k := by revert k; decide

theorem regOfIndex_rawBytes (k : Fin 16) : regOfIndex (65 + k) = .rawBytes k := by revert k; decide

theorem regOfIndex_reserved {n : Nat} (h : 50 ≤ n ∧ n < 64 ∨ 81 ≤ n ∧ n < 128) : regOfIndex n = .reserved := by
  have key : ∀ n : Fin 128, 50 ≤ n.val ∧ n.val < 64 ∨ 81 ≤ n.val ∧ n.val < 128 → regOfIndex n = .reserved := by
    decide
  exact key ⟨n, by omega⟩ h

/-! STATUS (R38). -/

/-- Four bytes of a word, as shifted fields. -/
theorem append_bytes_eq_or (b3 b2 b1 b0 : Byte) :
    b3 ++ b2 ++ b1 ++ b0 =
      (b3.setWidth 32 <<< 24) ||| (b2.setWidth 32 <<< 16) ||| (b1.setWidth 32 <<< 8) ||| b0.setWidth 32 := by
  ext i hi
  simp only [BitVec.getElem_append, BitVec.getElem_or, BitVec.getElem_shiftLeft, BitVec.getElem_setWidth]
  grind

/-- The low byte of STATUS: ENG_STATE, TX_IDLE, RX_PARTIAL and DIR. -/
def statusLow (e : Eng) (txIdle rxPartial dir : Bool) : Byte :=
  0#1 ++ e.code ++ 0#1 ++ BitVec.ofBool txIdle ++ BitVec.ofBool rxPartial ++ BitVec.ofBool dir

theorem statusLow_setWidth (e : Eng) (txIdle rxPartial dir : Bool) :
    (statusLow e txIdle rxPartial dir).setWidth 32 =
      (engNumber e <<< 4) ||| (if txIdle then 4#32 else 0#32) ||| (if rxPartial then 2#32 else 0#32) |||
        (if dir then 1#32 else 0#32) := by
  cases e <;> revert txIdle rxPartial dir <;> decide

/-- The fields below the counts make up one byte. -/
theorem append_low_bits (b3 b2 b1 : Byte) (e : BitVec 3) (i p d : BitVec 1) :
    b3 ++ b2 ++ b1 ++ 0#1 ++ e ++ 0#1 ++ i ++ p ++ d = b3 ++ b2 ++ b1 ++ (0#1 ++ e ++ 0#1 ++ i ++ p ++ d) := by
  simp only [BitVec.append_assoc']
  simp

/-- STATUS is three counts above its low byte. -/
theorem State.status_eq_append (s : State) :
    s.status = count8 s.rawq.length ++ count8 s.respq.length ++ count8 s.slots.length ++
      statusLow s.eng s.txq.isEmpty (!s.rxbuf.isEmpty) s.dir :=
  append_low_bits ..

theorem count8_setWidth (n : Nat) : (count8 n).setWidth 32 = BitVec.ofNat 32 (n % 256) := by
  apply BitVec.eq_of_toNat_eq
  simp [count8]

/-- STATUS field by field, in the numbers of R21 and R38. -/
theorem State.status_eq_or (s : State) :
    s.status =
      (BitVec.ofNat 32 (s.rawq.length % 256) <<< 24) ||| (BitVec.ofNat 32 (s.respq.length % 256) <<< 16) |||
        (BitVec.ofNat 32 (s.slots.length % 256) <<< 8) ||| (engNumber s.eng <<< 4) |||
        (if s.txq = [] then 4#32 else 0#32) ||| (if s.rxbuf = [] then 0#32 else 2#32) |||
        (if s.dir then 1#32 else 0#32) := by
  rw [s.status_eq_append, append_bytes_eq_or, statusLow_setWidth]
  simp only [count8_setWidth, BitVec.or_assoc, List.isEmpty_iff, Bool.not_eq_true', List.isEmpty_eq_false_iff, ite_not]

/-! The step. -/

/-- The HOST's turn with a read as its next access is that read (R61). -/
theorem step_hostRead {s : State} {rest : List Agent} {a : Word} {q : List HostOp} (hs : s.sched = .host :: rest)
    (hm : s.maint = false) (hq : s.hostq = .read a :: q) :
    step s = .next (State.hostRead { s with sched := rest, hostq := q } a) := by
  simp [step, State.schedStep, hs, State.runAgent, State.hostStep, hm, hq, State.hostAccess]

/-- A read inside the block returns the value of the register its word index names. -/
theorem State.hostRead_inBlock (s : State) {a : Word} (h : a.toNat / 4 < 128) :
    s.hostRead a = { s with rdata := s.readReg (regOfIndex (a.toNat / 4)) } := by
  have hb : inBlock a = true := by simp [inBlock]; omega
  simp [State.hostRead, hb, regAt]

/-- Settles O40: the register at each word index, and its value. -/
theorem hostReadsTheRegisterMap : Obligations.HostReadsTheRegisterMap := by
  intro s rest a q v hs hm hq hv
  suffices h : a.toNat / 4 < 128 ∧ s.readReg (regOfIndex (a.toNat / 4)) = v by
    rw [step_hostRead hs hm hq, State.hostRead_inBlock _ h.1, ← h.2]
    rfl
  generalize a.toNat / 4 = n at hv ⊢
  rcases hv with hv | ⟨k, rfl, rfl⟩ | ⟨k, rfl, rfl⟩ | ⟨k, rfl, rfl⟩ | ⟨rfl, hn⟩
  · rw [← s.status_eq_or] at hv
    change (n, v) ∈ namedRegs.map fun p => (p.1, s.readReg p.2) at hv
    obtain ⟨p, hp, heq⟩ := List.mem_map.1 hv
    obtain ⟨rfl, rfl⟩ := Prod.mk.inj heq
    obtain ⟨hlt, hreg⟩ := regOfIndex_named p hp
    rw [hreg]
    exact ⟨hlt, rfl⟩
  · rw [regOfIndex_enqPayload]; exact ⟨by omega, rfl⟩
  · rw [regOfIndex_respBytes]; exact ⟨by omega, rfl⟩
  · rw [regOfIndex_rawBytes]; exact ⟨by omega, rfl⟩
  · rw [regOfIndex_reserved hn]; exact ⟨by omega, rfl⟩

end Sys2Proof.Machine
end

section
/-! PROOFS. The windows on the heads of `respq` and `rawq` (R62, R68, R121). -/

namespace Sys2Proof.Machine

/-- Lane `j` of a window word shows the byte of that place in the bytes, and 0 past their end (R62). -/
theorem windowWord_byte (l : List Byte) (k : Nat) {j : Nat} (hj : j < 4) :
    (windowWord l k).extractLsb' (8 * j) 8 = l.getD (4 * k + j) 0#8 := by
  obtain ⟨h0, h1, h2, h3⟩ := wordByte_wordOfBytes (l.getD (4 * k) 0#8) (l.getD (4 * k + 1) 0#8)
    (l.getD (4 * k + 2) 0#8) (l.getD (4 * k + 3) 0#8)
  match j, hj with
  | 0, _ => exact h0
  | 1, _ => exact h1
  | 2, _ => exact h2
  | 3, _ => exact h3

/-- A length the windows can show is not cut by its 8-bit field. -/
theorem count8_setWidth_of_le {n : Nat} (h : n ≤ 64) : (count8 n).setWidth 32 = BitVec.ofNat 32 n := by
  rw [count8_setWidth, Nat.mod_eq_of_lt (by omega)]

theorem Kind.code_setWidth (k : Kind) : k.code.setWidth 32 = kindNumber k := by cases k <;> rfl

/-! RESP_HDR, RESP_ADDR and RESP_BYTES. -/

theorem State.respWindow_nil {s : State} (h : s.respq = []) (k : Nat) :
    s.respHdr = 0#32 ∧ s.respAddr = 0#32 ∧ s.respWord k = 0#32 := by
  simp [State.respHdr, State.respAddr, State.respWord, h]

/-- RESP_HDR is four bytes: VALID, the length, the command and the id. -/
theorem State.respHdr_cons {s : State} {e : RespRec} {q : List RespRec} (h : s.respq = e :: q)
    (hlen : e.resp.length ≤ 64) :
    s.respHdr = 0x80000000#32 ||| (BitVec.ofNat 32 e.resp.length <<< 16) ||| (e.command.setWidth 32 <<< 8) |||
      e.id.setWidth 32 := by
  have hbytes : s.respHdr = 0x80#8 ++ count8 e.resp.length ++ e.command ++ e.id := by
    simp only [State.respHdr, h]
    rfl
  rw [hbytes, append_bytes_eq_or, count8_setWidth_of_le hlen]
  rfl

theorem State.respAddr_cons {s : State} {e : RespRec} {q : List RespRec} (h : s.respq = e :: q) :
    s.respAddr = e.address.setWidth 32 := by
  simp only [State.respAddr, h]

theorem State.respWord_cons {s : State} {e : RespRec} {q : List RespRec} (h : s.respq = e :: q) (k : Nat) :
    s.respWord k = windowWord e.resp k := by
  simp only [State.respWord, h]

/-! RAW_HDR and RAW_BYTES. -/

theorem State.rawWindow_nil {s : State} (h : s.rawq = []) (k : Nat) : s.rawHdr = 0#32 ∧ s.rawWord k = 0#32 := by
  simp [State.rawHdr, State.rawWord, h]

/-- The tags in bits 23:16 of RAW_HDR: MATCHED and CHK_OK. -/
def rawTags (matched chkOk : Bool) : Byte := 0#6 ++ BitVec.ofBool matched ++ BitVec.ofBool chkOk

theorem rawTags_setWidth (matched chkOk : Bool) :
    (rawTags matched chkOk).setWidth 32 <<< 16 =
      ((BitVec.ofBool matched).setWidth 32 <<< 17) ||| ((BitVec.ofBool chkOk).setWidth 32 <<< 16) := by
  revert matched chkOk
  decide

theorem valid_append_tags (matched chkOk : Bool) :
    1#1 ++ 0#13 ++ BitVec.ofBool matched ++ BitVec.ofBool chkOk = 0x80#8 ++ rawTags matched chkOk := by
  revert matched chkOk
  decide

/-- RAW_HDR is four bytes: VALID, the tags, the kind's code and the length. -/
theorem State.rawHdr_cons {s : State} {f : RawRec} {q : List RawRec} (h : s.rawq = f :: q)
    (hlen : f.bytes.length ≤ 64) :
    s.rawHdr = 0x80000000#32 ||| ((BitVec.ofBool f.matched).setWidth 32 <<< 17) |||
      ((BitVec.ofBool f.chkOk).setWidth 32 <<< 16) ||| (kindNumber f.kind <<< 8) |||
      BitVec.ofNat 32 f.bytes.length := by
  have hbytes : s.rawHdr = 0x80#8 ++ rawTags f.matched f.chkOk ++ f.kind.code ++ count8 f.bytes.length := by
    simp only [State.rawHdr, h]
    rw [valid_append_tags]
  rw [hbytes, append_bytes_eq_or, rawTags_setWidth, Kind.code_setWidth, count8_setWidth_of_le hlen, ← BitVec.or_assoc]
  rfl

theorem State.rawWord_cons {s : State} {f : RawRec} {q : List RawRec} (h : s.rawq = f :: q) (k : Nat) :
    s.rawWord k = windowWord f.bytes k := by
  simp only [State.rawWord, h]

/-- Settles O41: each window, with its FIFO empty and with a head. -/
theorem windowsShowTheHeads : Obligations.WindowsShowTheHeads := by
  intro s
  simp only [State.readReg]
  refine ⟨fun h k => State.respWindow_nil h k, fun e q h hlen => ?_, fun h k => State.rawWindow_nil h k,
    fun f q h hlen => ?_⟩
  · refine ⟨State.respHdr_cons h hlen, State.respAddr_cons h, fun k j hj => ?_⟩
    rw [State.respWord_cons h, windowWord_byte _ _ hj]
  · refine ⟨State.rawHdr_cons h hlen, fun k j hj => ?_⟩
    rw [State.rawWord_cons h, windowWord_byte _ _ hj]

end Sys2Proof.Machine
end

section
/-! PROOFS. The HOST's writes (R61, R65, R290 to R293): which registers store the word, and the step. -/

namespace Sys2Proof.Machine

/-- The registers that store what the HOST writes (R65). CMD is not one of them: a write there runs a command (R280). -/
def Reg.stores : Reg → Bool
  | .ctrl | .enqDesc0 | .enqDesc1 | .enqPayload _ => true
  | _ => false

/-- A register that stores nothing ignores a write. -/
theorem State.writeReg_of_not_stores (s : State) {r : Reg} (h : r.stores = false) (w : Word) : s.writeReg r w = s := by
  cases r with
  | ctrl | enqDesc0 | enqDesc1 | enqPayload => exact absurd h (by simp [Reg.stores])
  | _ => rfl

theorem regOfIndex_not_stores {n : Nat} (h : n ∈ [1, 2, 4, 5] ∨ 16 ≤ n ∧ n < 128) :
    n < 128 ∧ (regOfIndex n).stores = false ∧ regOfIndex n ≠ .cmd := by
  have key : ∀ n : Fin 128, n.val ∈ [1, 2, 4, 5] ∨ 16 ≤ n.val ∧ n.val < 128 →
      (regOfIndex n).stores = false ∧ regOfIndex n ≠ .cmd := by decide
  have hlt : n < 128 := by
    simp only [List.mem_cons, List.not_mem_nil, or_false] at h
    omega
  exact ⟨hlt, key ⟨n, hlt⟩ h⟩

/-- The block is the word indices below 128 (R61). -/
theorem inBlock_iff (a : Word) : inBlock a = true ↔ a.toNat / 4 < 128 := by
  rw [inBlock, decide_eq_true_iff]
  omega

/-! The step. -/

/-- The HOST's turn with a write as its next access is that write, unless it goes to CMD (R61, R280). -/
theorem step_hostWrite {s : State} {rest : List Agent} {a w : Word} {q : List HostOp} (hs : s.sched = .host :: rest)
    (hm : s.maint = false) (hq : s.hostq = .write a w :: q) (ha : ¬ (inBlock a = true ∧ regAt a = .cmd)) :
    step s = .next (State.hostWrite { s with sched := rest, hostq := q } a w) := by
  simp [step, State.schedStep, hs, State.runAgent, State.hostStep, hm, hq, State.hostAccess, ha]

/-- A write inside the block but to CMD writes the register its word index names. -/
theorem step_writeReg {s : State} {rest : List Agent} {a w : Word} {q : List HostOp} (hs : s.sched = .host :: rest)
    (hm : s.maint = false) (hq : s.hostq = .write a w :: q) {r : Reg} (hlt : a.toNat / 4 < 128)
    (hr : regOfIndex (a.toNat / 4) = r) (hcmd : r ≠ .cmd) :
    step s = .next (State.writeReg { s with sched := rest, hostq := q } r w) := by
  have hb : inBlock a = true := (inBlock_iff a).2 hlt
  have hreg : regAt a = r := hr
  rw [step_hostWrite hs hm hq (fun h => hcmd (hreg ▸ h.2)), State.hostWrite, if_pos hb, hreg]

/-- VBFE never sees a write outside the block (R61; log 7). -/
theorem step_hostWrite_outside {s : State} {rest : List Agent} {a w : Word} {q : List HostOp}
    (hs : s.sched = .host :: rest) (hm : s.maint = false) (hq : s.hostq = .write a w :: q)
    (hout : 128 ≤ a.toNat / 4) : step s = .next { s with sched := rest, hostq := q } := by
  have hb : ¬ inBlock a = true := fun h => absurd ((inBlock_iff a).1 h) (by omega)
  rw [step_hostWrite hs hm hq (fun h => hb h.1), State.hostWrite, if_neg hb]

/-- Settles O42: the register at each word index, and what a write does to it. -/
theorem hostWritesOnlyTheWritableRegisters : Obligations.HostWritesOnlyTheWritableRegisters := by
  intro s rest a w q hs hm hq
  refine ⟨fun h => ?ctrl, fun h => ?desc0, fun h => ?desc1, fun k h => ?payload, fun h => ?ignored,
    step_hostWrite_outside hs hm hq⟩
  case ctrl => exact step_writeReg hs hm hq (r := .ctrl) (by omega) (by rw [h]; rfl) (by decide)
  case desc0 => exact step_writeReg hs hm hq (r := .enqDesc0) (by omega) (by rw [h]; rfl) (by decide)
  case desc1 => exact step_writeReg hs hm hq (r := .enqDesc1) (by omega) (by rw [h]; rfl) (by decide)
  case payload => exact step_writeReg hs hm hq (by omega) (by rw [h, regOfIndex_enqPayload]) (by simp)
  case ignored =>
    obtain ⟨hlt, hstores, hcmd⟩ := regOfIndex_not_stores h
    rw [step_writeReg hs hm hq hlt rfl hcmd, State.writeReg_of_not_stores _ hstores]

end Sys2Proof.Machine
end

section
/-! PROOFS. The command words (R114 to R116, R280). -/

namespace Sys2Proof

/-- A command word says its opcode, and bit 8 for opcode 1 only (R114). -/
theorem decodeCmd_congr {v w : Word} (hop : v.extractLsb' 0 8 = w.extractLsb' 0 8)
    (hc : v.extractLsb' 0 8 = 0x01#8 → v.getLsbD 8 = w.getLsbD 8) : decodeCmd v = decodeCmd w := by
  unfold decodeCmd
  rw [← hop]
  split
  case h_2 h1 =>
    have hbit : v.getLsbD 8 = w.getLsbD 8 := hc (BitVec.eq_of_toNat_eq h1)
    rw [hbit]
  all_goals rfl

/-- The opcodes from 0x08 up are RESERVED (R116). -/
theorem decodeCmd_reserved {w : Word} (h : 0x08#8 ≤ w.extractLsb' 0 8) :
    decodeCmd w = .reserved (w.extractLsb' 0 8) := by
  have h8 : 8 ≤ (w.extractLsb' 0 8).toNat := h
  unfold decodeCmd
  split
  case h_9 => rfl
  all_goals omega

/-- A command word decodes to a well-formed command. -/
theorem decodeCmd_wf (enforce : Bool) (w : Word) : (decodeCmd w).wf enforce = true := by
  by_cases h : 0x08#8 ≤ w.extractLsb' 0 8
  · rw [decodeCmd_reserved h]
    exact decide_eq_true h
  · have h8 : (w.extractLsb' 0 8).toNat < 8 := Nat.lt_of_not_le h
    unfold decodeCmd
    generalize (w.extractLsb' 0 8).toNat = n at h8
    match n, h8 with
    | 1, _ => simp only; split <;> rfl
    | 0, _ | 2, _ | 3, _ | 4, _ | 5, _ | 6, _ | 7, _ => rfl

/-- A mask that keeps the low byte keeps the opcode. -/
theorem opcode_and_mask (w : Word) {m : Word} (hm : m.extractLsb' 0 8 = BitVec.allOnes 8) :
    (w &&& m).extractLsb' 0 8 = w.extractLsb' 0 8 := by
  rw [BitVec.extractLsb'_and, hm, BitVec.and_allOnes]

/-- The opcode is the word under the mask of its low byte. -/
theorem and_0xFF_eq_opcode (w : Word) : w &&& 0x000000FF#32 = (w.extractLsb' 0 8).setWidth 32 := by
  apply BitVec.eq_of_toNat_eq
  have hmask : w.toNat &&& 255 = w.toNat % 256 := Nat.and_two_pow_sub_one_eq_mod _ 8
  rw [BitVec.toNat_setWidth_of_le (by decide)]
  simpa using hmask

/-- Settles O26: two words with one opcode, and one bit 8 where it is read, are one command. -/
theorem commandWordsIgnoreUnusedBits : Obligations.CommandWordsIgnoreUnusedBits := by
  intro w
  refine ⟨?bits31to9, fun hop => ?bit8, fun hop => ?reserved, decodeCmd w, rfl, decodeCmd_wf false w⟩
  case bits31to9 =>
    exact (decodeCmd_congr (opcode_and_mask w (by decide)) fun _ => by simp).symm
  case bit8 =>
    refine decodeCmd_congr (opcode_and_mask w (by decide)).symm fun h1 => absurd ?_ hop
    rw [and_0xFF_eq_opcode, h1]
    rfl
  case reserved =>
    rw [and_0xFF_eq_opcode] at hop
    have hop8 : 0x08#8 ≤ w.extractLsb' 0 8 := by
      rw [BitVec.le_def, BitVec.toNat_setWidth_of_le (by decide)] at hop
      exact hop
    rw [decodeCmd_reserved hop8, BitVec.setWidth_eq_extractLsb' (by decide)]

/-- Settles O27, by evaluating the decoder. -/
theorem writtenOutWordsDecode : Obligations.WrittenOutWordsDecode := by
  refine ⟨rfl, rfl, ?_, ?_⟩ <;> decide

end Sys2Proof
end

section
/-! PROOFS. The frame decoder (R104, R105, R177): each of its tests, and the conditions of the kinds. -/

namespace Sys2Proof

/-! The tests before the dispatch, in the order of R105. -/

theorem not_startOk_iff (r : List Byte) :
    (r.length < 2 ∨ r[0]? ≠ some mpId ∨ r[1]? ≠ some mpId) ↔ startOk r = false := by
  rw [← Bool.not_eq_true, startOk_iff, not_and_or]
  refine or_iff_right_of_imp fun hlen => .inr ?_
  rw [List.getElem?_eq_none (by omega)]
  simp

/-- A frame gets as far as the checksum when its start, its length and its type are good. -/
theorem headOk_eq_false {r : List Byte} (hs : startOk r = true) (hlen : 4 ≤ r.length) (h : headOk r = false) :
    r[2]? ≠ some syncFrame ∧ r[2]? ≠ some dataFrame := by
  simpa [headOk, hs, hlen] using h

theorem decodeFrame_badStart (enforce : Bool) {r : List Byte} (hs : startOk r = false) :
    decodeFrame enforce r = .rxBadStart r := by
  rw [decodeFrame, if_pos ((not_startOk_iff r).2 hs)]

/-- After a good start the decoder looks at the length, the type and the checksum. -/
theorem decodeFrame_started (enforce : Bool) {r : List Byte} (hs : startOk r = true) :
    decodeFrame enforce r =
      if r.length < 4 then .rxShort r
      else if r[2]? ≠ some syncFrame ∧ r[2]? ≠ some dataFrame then .rxBadType r
      else if validate r = false ∧ enforce = true then .rxChkDiscard r
      else decodeDestuffed r (destuff r) := by
  rw [decodeFrame, if_neg fun h => absurd ((not_startOk_iff r).1 h) (by simp [hs])]

theorem decodeFrame_shortRaw (enforce : Bool) {r : List Byte} (hs : startOk r = true) (hlen : r.length < 4) :
    decodeFrame enforce r = .rxShort r := by
  rw [decodeFrame_started enforce hs, if_pos hlen]

theorem decodeFrame_badType (enforce : Bool) {r : List Byte} (hs : startOk r = true) (hlen : 4 ≤ r.length)
    (hsync : r[2]? ≠ some syncFrame) (hdata : r[2]? ≠ some dataFrame) : decodeFrame enforce r = .rxBadType r := by
  rw [decodeFrame_started enforce hs, if_neg (by omega), if_pos ⟨hsync, hdata⟩]

/-- From the checksum on, the decoder's answer is CHK_DISCARD or the destuffed frame's kind. -/
theorem decodeFrame_headOk (enforce : Bool) {r : List Byte} (h : headOk r = true) :
    decodeFrame enforce r =
      if validate r = false ∧ enforce = true then .rxChkDiscard r else decodeDestuffed r (destuff r) := by
  obtain ⟨hs, hlen, htype⟩ := (headOk_iff r).1 h
  rw [decodeFrame_started enforce ((startOk_iff r).2 hs), if_neg (by omega), if_neg]
  exact fun hn => htype.elim hn.1 hn.2

theorem accepted_iff (enforce : Bool) (r : List Byte) :
    accepted enforce r = true ↔ headOk r = true ∧ ¬ (validate r = false ∧ enforce = true) := by
  unfold accepted
  cases headOk r <;> cases validate r <;> cases enforce <;> decide

theorem decodeFrame_accepted {enforce : Bool} {r : List Byte} (h : accepted enforce r = true) :
    decodeFrame enforce r = decodeDestuffed r (destuff r) := by
  obtain ⟨hhead, hvalid⟩ := (accepted_iff enforce r).1 h
  rw [decodeFrame_headOk enforce hhead, if_neg hvalid]

/-! The destuffed frame. -/

/-- The start and type bytes are no escapes, so destuffing keeps the type byte (R143). -/
theorem destuff_typeByte {r : List Byte} (h : headOk r = true) : (destuff r)[2]? = r[2]? := by
  obtain ⟨⟨h0, h1⟩, hlen, htype⟩ := (headOk_iff r).1 h
  match r, hlen with
  | a :: b :: c :: d :: l, _ =>
    simp only [List.getElem?_cons_zero, List.getElem?_cons_succ, Option.some.injEq] at h0 h1 htype ⊢
    have hc : c ≠ escByte := by rcases htype with rfl | rfl <;> decide
    subst h0 h1
    rw [destuff_plain (by decide), destuff_plain (by decide), destuff_plain hc]
    rfl

theorem decodeFrame_sync {enforce : Bool} {r : List Byte} (h : syncType enforce r = true) :
    decodeFrame enforce r =
      if destuffedLen r = 10 ∧ (destuff r)[4]? = some syncByte then .rxSync r else .rxSyncOther r := by
  obtain ⟨hacc, htype⟩ : accepted enforce r = true ∧ r[2]? = some syncFrame := by simpa [syncType] using h
  have hd : (destuff r)[2]? = some syncFrame := (destuff_typeByte ((accepted_iff _ _).1 hacc).1).trans htype
  rw [decodeFrame_accepted hacc, decodeDestuffed, if_pos hd]
  rfl

theorem decodeFrame_data {enforce : Bool} {r : List Byte} (h : dataType enforce r = true) :
    decodeFrame enforce r =
      if destuffedLen r < 6 then .rxShort r else decodeDataKind r (destuff r) := by
  obtain ⟨hacc, htype⟩ : accepted enforce r = true ∧ r[2]? = some dataFrame := by simpa [dataType] using h
  have hd : (destuff r)[2]? = some dataFrame := (destuff_typeByte ((accepted_iff _ _).1 hacc).1).trans htype
  rw [decodeFrame_accepted hacc, decodeDestuffed, if_neg (by rw [hd]; decide)]
  rfl

/-- The dispatch of R177, on the kind byte itself. -/
theorem decodeDataKind_eq {r : List Byte} {b : Byte} (h : (destuff r)[4]? = some b) :
    decodeDataKind r (destuff r) =
      if b = 0x00#8 then (if 8 ≤ destuffedLen r then .rxResponse r else .rxShort r)
      else if b = 0x20#8 then .rxInfo r
      else if b = 0x41#8 then .rxLed r
      else if b = 0x70#8 then .rxBattery r
      else if b = 0x80#8 then .rxCharger r
      else if b = 0xE4#8 then .rxAcPhase r
      else .rxDataOther r := by
  have hb : (destuff r).getD 4 0#8 = b := by rw [List.getD_eq_getElem?_getD, h, Option.getD_some]
  have hlen : destuffedLen r = (destuff r).length := rfl
  simp only [decodeDataKind, hb, hlen, ← BitVec.toNat_inj, BitVec.toNat_ofNat]
  split <;> simp_all

/-- A destuffed frame long enough for a data frame has a kind byte. -/
theorem exists_kindByte {r : List Byte} (h : 6 ≤ destuffedLen r) : ∃ b, (destuff r)[4]? = some b :=
  ⟨_, List.getElem?_eq_getElem (Nat.lt_of_lt_of_le (by decide : 4 < 6) h)⟩

/-! The conditions of R104, kind by kind. -/

theorem wf_rxSync_iff (enforce : Bool) (r : List Byte) : (Instr.rxSync r).wf enforce = true ↔
    terminated r = true ∧ syncType enforce r = true ∧ destuffedLen r = 10 ∧ (destuff r)[4]? = some syncByte := by
  simp [Instr.wf, kindByteIs, and_assoc]

theorem wf_rxSyncOther_iff (enforce : Bool) (r : List Byte) : (Instr.rxSyncOther r).wf enforce = true ↔
    terminated r = true ∧ syncType enforce r = true ∧ ¬ (destuffedLen r = 10 ∧ (destuff r)[4]? = some syncByte) := by
  simp [Instr.wf, kindByteIs, and_assoc, imp_iff_not_or]

theorem dataKind_iff (enforce : Bool) (k : Byte) (low : Nat) (r : List Byte) : dataKind enforce k low r = true ↔
    terminated r = true ∧ dataType enforce r = true ∧ (destuff r)[4]? = some k ∧ low ≤ destuffedLen r := by
  simp [dataKind, kindByteIs, and_assoc]

theorem wf_rxDataOther_iff (enforce : Bool) (r : List Byte) : (Instr.rxDataOther r).wf enforce = true ↔
    terminated r = true ∧ dataType enforce r = true ∧ 6 ≤ destuffedLen r ∧
      ∀ k ∈ [0x00#8, 0x20#8, 0x41#8, 0x70#8, 0x80#8, 0xE4#8], (destuff r)[4]? ≠ some k := by
  simp [Instr.wf, kindByteIs, and_assoc]

theorem wf_rxBadStart_iff (enforce : Bool) (r : List Byte) : (Instr.rxBadStart r).wf enforce = true ↔
    terminated r = true ∧ startOk r = false := by
  simp [Instr.wf]

theorem wf_rxBadType_iff (enforce : Bool) (r : List Byte) : (Instr.rxBadType r).wf enforce = true ↔
    terminated r = true ∧ startOk r = true ∧ 4 ≤ r.length ∧ r[2]? ≠ some syncFrame ∧ r[2]? ≠ some dataFrame := by
  simp [Instr.wf, and_assoc]

theorem wf_rxShort_iff (enforce : Bool) (r : List Byte) : (Instr.rxShort r).wf enforce = true ↔
    terminated r = true ∧ startOk r = true ∧ (r.length < 4 ∨
      dataType enforce r = true ∧ (destuffedLen r < 6 ∨ (destuff r)[4]? = some 0x00#8 ∧ destuffedLen r < 8)) := by
  simp [Instr.wf, kindByteIs, and_assoc]

theorem wf_rxChkDiscard_iff (enforce : Bool) (r : List Byte) : (Instr.rxChkDiscard r).wf enforce = true ↔
    terminated r = true ∧ headOk r = true ∧ validate r = false ∧ enforce = true := by
  simp [Instr.wf, and_assoc]

/-! Every well-formed frame kind is the decoder's answer. -/

/-- A row of R104 with a fixed kind byte gets as far as the dispatch on that byte. -/
theorem decodeFrame_dataKind {enforce : Bool} {k : Byte} {low : Nat} {r : List Byte}
    (h : dataKind enforce k low r = true) (hlow : 6 ≤ low) : decodeFrame enforce r = decodeDataKind r (destuff r) := by
  obtain ⟨-, hdata, -, hlen⟩ := (dataKind_iff ..).1 h
  rw [decodeFrame_data hdata, if_neg (by omega)]

/-- The decoder gives back every well-formed frame kind (R104, R177). -/
theorem decodeFrame_of_wf {enforce : Bool} {i : Instr} {r : List Byte} (hr : encode i = .frame r)
    (h : i.wf enforce = true) : decodeFrame enforce r = i := by
  cases i <;> simp only [encode, Parcel.frame.injEq, reduceCtorEq] at hr <;> subst hr
  case rxSync r =>
    obtain ⟨-, hsync, hsyncByte⟩ := (wf_rxSync_iff ..).1 h
    rw [decodeFrame_sync hsync, if_pos hsyncByte]
  case rxSyncOther r =>
    obtain ⟨-, hsync, hother⟩ := (wf_rxSyncOther_iff ..).1 h
    rw [decodeFrame_sync hsync, if_neg hother]
  case rxResponse r =>
    obtain ⟨-, -, hkind, hlen⟩ := (dataKind_iff ..).1 h
    rw [decodeFrame_dataKind h (by decide), decodeDataKind_eq hkind, if_pos rfl, if_pos hlen]
  case rxDataOther r =>
    obtain ⟨-, hdata, hlen, hother⟩ := (wf_rxDataOther_iff ..).1 h
    obtain ⟨b, hb⟩ := exists_kindByte hlen
    have hne : ∀ k ∈ [0x00#8, 0x20#8, 0x41#8, 0x70#8, 0x80#8, 0xE4#8], b ≠ k :=
      fun k hk hbk => hother k hk (hbk ▸ hb)
    simp only [List.forall_mem_cons] at hne
    rw [decodeFrame_data hdata, if_neg (by omega), decodeDataKind_eq hb]
    simp only [hne, if_false]
  case rxBadStart r => exact decodeFrame_badStart enforce ((wf_rxBadStart_iff ..).1 h).2
  case rxBadType r =>
    obtain ⟨-, hs, hlen, hsync, hdata⟩ := (wf_rxBadType_iff ..).1 h
    exact decodeFrame_badType enforce hs hlen hsync hdata
  case rxShort r =>
    obtain ⟨-, hs, hraw | ⟨hdata, hshort⟩⟩ := (wf_rxShort_iff ..).1 h
    · exact decodeFrame_shortRaw enforce hs hraw
    · rw [decodeFrame_data hdata]
      split
      · rfl
      next hlen =>
        obtain ⟨hkind, hfew⟩ := hshort.resolve_left hlen
        rw [decodeDataKind_eq hkind, if_pos rfl, if_neg (by omega)]
  case rxChkDiscard r =>
    obtain ⟨-, hhead, hdiscard⟩ := (wf_rxChkDiscard_iff ..).1 h
    rw [decodeFrame_headOk enforce hhead, if_pos hdiscard]
  all_goals
    obtain ⟨-, -, hkind, -⟩ := (dataKind_iff ..).1 h
    rw [decodeFrame_dataKind h (by decide), decodeDataKind_eq hkind]
    rfl

/-- A well-formed frame kind holds a completed frame (R175). -/
theorem terminated_of_wf {enforce : Bool} {i : Instr} {r : List Byte} (hr : encode i = .frame r)
    (h : i.wf enforce = true) : terminated r = true := by
  cases i <;> simp only [encode, Parcel.frame.injEq, reduceCtorEq] at hr <;> subst hr
  case rxSync => exact ((wf_rxSync_iff ..).1 h).1
  case rxSyncOther => exact ((wf_rxSyncOther_iff ..).1 h).1
  case rxDataOther => exact ((wf_rxDataOther_iff ..).1 h).1
  case rxBadStart => exact ((wf_rxBadStart_iff ..).1 h).1
  case rxBadType => exact ((wf_rxBadType_iff ..).1 h).1
  case rxShort => exact ((wf_rxShort_iff ..).1 h).1
  case rxChkDiscard => exact ((wf_rxChkDiscard_iff ..).1 h).1
  all_goals exact ((dataKind_iff ..).1 h).1

theorem terminated_iff (r : List Byte) : terminated r = true ↔ r.getLast? = some endOfFrame := beq_iff_eq

/-! The decoder's answer is well formed for every completed frame. -/

/-- The dispatch of an accepted data frame answers a kind whose row the frame meets (R104). -/
theorem decodeDataKind_wf {enforce : Bool} {r : List Byte} (ht : terminated r = true)
    (hs : startOk r = true) (hdata : dataType enforce r = true)
    (hlen : 6 ≤ destuffedLen r) : (decodeDataKind r (destuff r)).wf enforce = true := by
  obtain ⟨b, hb⟩ := exists_kindByte hlen
  have row : ∀ {k low}, b = k → low ≤ destuffedLen r → dataKind enforce k low r = true :=
    fun hk hlow => (dataKind_iff ..).2 ⟨ht, hdata, hk ▸ hb, hlow⟩
  rw [decodeDataKind_eq hb]
  split_ifs with h0 h8 h20 h41 h70 h80 hE4
  · exact row h0 h8
  · exact (wf_rxShort_iff ..).2 ⟨ht, hs, .inr ⟨hdata, .inr ⟨h0 ▸ hb, by omega⟩⟩⟩
  · exact row h20 hlen
  · exact row h41 hlen
  · exact row h70 hlen
  · exact row h80 hlen
  · exact row hE4 hlen
  · exact (wf_rxDataOther_iff ..).2 ⟨ht, hdata, hlen, by simp [*]⟩

/-- An accepted frame is a sync or a data frame. -/
theorem decodeFrame_accepted_wf {enforce : Bool} {r : List Byte} (ht : terminated r = true)
    (hacc : accepted enforce r = true) : (decodeFrame enforce r).wf enforce = true := by
  obtain ⟨hs, -, htype⟩ := (headOk_iff r).1 ((accepted_iff enforce r).1 hacc).1
  rcases htype with hsync | hdata
  · have hsync : syncType enforce r = true := by simp [syncType, hacc, hsync]
    rw [decodeFrame_sync hsync]
    split
    next hsyncByte => exact (wf_rxSync_iff ..).2 ⟨ht, hsync, hsyncByte⟩
    next hother => exact (wf_rxSyncOther_iff ..).2 ⟨ht, hsync, hother⟩
  · have hdata : dataType enforce r = true := by simp [dataType, hacc, hdata]
    rw [decodeFrame_data hdata]
    split
    next hfew => exact (wf_rxShort_iff ..).2 ⟨ht, (startOk_iff r).2 hs, .inr ⟨hdata, .inl hfew⟩⟩
    next hlen => exact decodeDataKind_wf ht ((startOk_iff r).2 hs) hdata (by omega)

/-- Whichever test of the decoder a completed frame fails first, the conditions of that kind hold (R104, R105). -/
theorem decodeFrame_wf (enforce : Bool) {r : List Byte} (ht : terminated r = true) :
    (decodeFrame enforce r).wf enforce = true := by
  rcases hs : startOk r with _ | _
  · rw [decodeFrame_badStart enforce hs]
    exact (wf_rxBadStart_iff ..).2 ⟨ht, hs⟩
  rcases Nat.lt_or_ge r.length 4 with hraw | hlen
  · rw [decodeFrame_shortRaw enforce hs hraw]
    exact (wf_rxShort_iff ..).2 ⟨ht, hs, .inl hraw⟩
  rcases hhead : headOk r with _ | _
  · obtain ⟨hsync, hdata⟩ := headOk_eq_false hs hlen hhead
    rw [decodeFrame_badType enforce hs hlen hsync hdata]
    exact (wf_rxBadType_iff ..).2 ⟨ht, hs, hlen, hsync, hdata⟩
  by_cases hdiscard : validate r = false ∧ enforce = true
  · rw [decodeFrame_headOk enforce hhead, if_pos hdiscard]
    exact (wf_rxChkDiscard_iff ..).2 ⟨ht, hhead, hdiscard⟩
  · exact decodeFrame_accepted_wf ht ((accepted_iff enforce r).2 ⟨hhead, hdiscard⟩)

theorem encode_of_isFrame {i : Instr} {r : List Byte} (h : i.isFrame r = true) : encode i = .frame r := by
  cases i <;> simp only [Instr.isFrame, decide_eq_true_eq, Bool.false_eq_true] at h <;> subst h <;> rfl

/-- Settles O24: the decoder's answer is well formed, and every well-formed kind of the frame is that answer. -/
theorem everyCompletedFrameHasOneKind : Obligations.EveryCompletedFrameHasOneKind := by
  intro enforce r hr
  have ht : terminated r = true := (terminated_iff r).2 hr
  refine ⟨decodeFrame enforce r, ⟨decodeFrame_wf enforce ht, encode_of_isFrame (decodeFrame_isFrame enforce r)⟩, ?_⟩
  rintro j ⟨hwf, henc⟩
  exact (decodeFrame_of_wf henc hwf).symm

end Sys2Proof
end

section
/-! PROOFS. Decoding an encoding gives the instruction back (R96 to R104, R112 to R115). -/

namespace Sys2Proof

/-! Payload commands (R96 to R103, R112, R113). -/

theorem codedRequest_reply_self (t : Target) (a : Reply) (b1 code : Byte) (body : List Byte) :
    codedRequest t
      { respExp := (codedRequest t a b1 code body).respExp, expCode := (codedRequest t a b1 code body).expCode }
      b1 code body = codedRequest t a b1 code body := by
  cases h : expectedCode code <;> simp [codedRequest, h]

/-- A template request that fits the staging registers decodes by its code, with the reply it carries (R96, R112). -/
theorem decodeRequest_codedRequest (t : Target) (a : Reply) (b1 code : Byte) {body : List Byte}
    (h : body.length ≤ 29) :
    decodeRequest (codedRequest t a b1 code body) =
      decodeCoded t
        { respExp := (codedRequest t a b1 code body).respExp, expCode := (codedRequest t a b1 code body).expCode }
        b1 code body := by
  have hself := codedRequest_reply_self t a b1 code body
  exact if_pos ⟨h, hself.symm⟩

theorem decodeRequest_switchRequest (t : Target) (st : SwitchState) :
    decodeRequest (switchRequest t st) = some (.paySetSwitchState t st) := by
  cases st <;> exact if_pos ⟨rfl, rfl⟩

theorem pairBody_length {body : List Byte} (h : pairBody body = true) : body.length ≤ 29 := by
  rw [pairBody, Bool.or_eq_true, decide_eq_true_iff, decide_eq_true_iff] at h
  omega

/-- Every well-formed payload command is read back from its request. -/
theorem decodeRequest_of_wf {enforce : Bool} {i : Instr} {q : Request} (hq : encode i = .request q)
    (h : i.wf enforce = true) : decodeRequest q = some i := by
  cases i <;> simp only [encode, Parcel.request.injEq, reduceCtorEq] at hq <;> subst hq
  case paySetSwitchState t st => exact decodeRequest_switchRequest t st
  case paySendSoftwareVersionPart0 | paySendSoftwareVersionPart1 | payGetSetDeviceState =>
    rw [decodeRequest_codedRequest _ _ _ _ (pairBody_length h)]
    exact if_pos h
  case payReadRamVar =>
    have hlen := Bool.and_eq_true_iff.1 h
    rw [decide_eq_true_iff, decide_eq_true_iff] at hlen
    rw [decodeRequest_codedRequest _ _ _ _ (by omega)]
    exact if_pos hlen
  case payWriteViaId =>
    rw [decodeRequest_codedRequest _ _ _ _ (by simp)]
    exact if_pos (of_decide_eq_true h)
  case payWriteRamVar | payWriteSetting | payWriteData | payReadSnapShot =>
    rw [decodeRequest_codedRequest _ _ _ _ (of_decide_eq_true h)]
    rfl
  all_goals
    rw [decodeRequest_codedRequest _ _ _ _ (by simp)]
    rfl

/-- Every well-formed command is read back from its word (R114, R115). -/
theorem decodeCmd_of_wf {enforce : Bool} {i : Instr} {w : Word} (hw : encode i = .cmd w)
    (h : i.wf enforce = true) : decodeCmd w = i := by
  cases i <;> simp only [encode, Parcel.cmd.injEq, reduceCtorEq] at hw <;> subst hw
  case reserved op =>
    have hop : (op.setWidth 32).extractLsb' 0 8 = op := by simp [← BitVec.setWidth_eq_extractLsb']
    rw [decodeCmd_reserved (by rw [hop]; exact of_decide_eq_true h), hop]
  all_goals rfl

/-- Settles O23, by the interface the instruction's encoding belongs to. -/
theorem decodeOfEncodeIsIdentity : Obligations.DecodeOfEncodeIsIdentity := by
  intro enforce i h
  cases henc : encode i with
  | cmd w => rw [decode, decodeCmd_of_wf henc h]
  | frame r =>
    have hr : r.getLast? = some endOfFrame := (terminated_iff r).1 (terminated_of_wf henc h)
    rw [decode, if_pos hr, decodeFrame_of_wf henc h]
  | request q => rw [decode, decodeRequest_of_wf henc h]

end Sys2Proof
end

section
/-! PROOFS. The elements of the output FIFOs (R124, R175, R181, R220, R230 item 2). -/

namespace Sys2Proof.Machine

/-- A stored response is a response frame that fitted the assembly buffer, or there is none yet (R230 item 2). -/
def ResponsesFit (s : State) : Prop :=
  ∀ e ∈ s.slots, e.resp = [] ∨ (8 ≤ e.resp.length ∧ e.resp.length ≤ s.cfg.maxBufferSize)

theorem RegistryInv.responsesFit {s : State} (h : RegistryInv s) : ResponsesFit s :=
  fun e he => (h.entries e he).respLength

theorem FifoElementsInv.of_empty {s : State} (hresp : s.respq = []) (hraw : s.rawq = []) : FifoElementsInv s :=
  ⟨by simp [hresp], by simp [hraw]⟩

/-! The scans: HARVEST emits a stored response, and a retry clears one (R219, R220). -/

/-- What HARVEST keeps: the elements of the FIFOs, and the stored responses they come from. -/
structure Deliverable (s : State) : Prop where
  elements : FifoElementsInv s
  stored : ResponsesFit s

theorem ResponsesFit.retryOrDrop {s : State} (h : ResponsesFit s) (i : Nat) (e : Entry) (cause : RetryCause) :
    ResponsesFit (s.retryOrDrop i e cause).2 := by
  rcases s.retryOrDrop_cases i e cause with ⟨-, heq⟩ | ⟨-, c, -, heq⟩ <;> rw [heq] <;> intro x hx
  · exact h x (mem_of_mem_swapRemove hx)
  · rcases List.mem_or_eq_of_mem_set hx with hx | rfl
    · exact h x hx
    · exact .inl rfl

theorem FifoElementsInv.retryOrDrop {s : State} (h : FifoElementsInv s) (i : Nat) (e : Entry) (cause : RetryCause) :
    FifoElementsInv (s.retryOrDrop i e cause).2 := by
  rcases s.retryOrDrop_cases i e cause with ⟨-, heq⟩ | ⟨-, c, -, heq⟩ <;> rw [heq] <;> exact { h with }

/-- An answered entry holds a response, which becomes the new element of `respq` (R220). -/
theorem Deliverable.emit {s : State} (h : Deliverable s) {i : Nat} {e : Entry} (he : s.slots[i]? = some e)
    (ha : e.answered = true) : Deliverable (State.remove { s with respq := s.respq ++ [e.respRec] } i) := by
  have hne : e.resp ≠ [] := by
    intro hnil
    simp [Entry.answered, hnil] at ha
  have hfits := (h.stored e (List.mem_of_getElem? he)).resolve_left hne
  refine ⟨⟨fun x hx => ?_, h.elements.records⟩, fun x hx => h.stored x (mem_of_mem_swapRemove hx)⟩
  rcases List.mem_append.1 hx with hx | hx
  · exact h.elements.responses x hx
  · rw [List.mem_singleton.1 hx]
    exact hfits

theorem Deliverable.harvest {s : State} (h : Deliverable s) : Deliverable s.harvest.2 :=
  State.harvestFrom_induct Deliverable (fun _ ht => ⟨{ ht.elements with }, ht.stored⟩)
    (fun _ _ _ ht he ha _ => ht.emit he ha)
    (fun _ i e ht _ _ _ => ⟨ht.elements.retryOrDrop i e .mismatch, ht.stored.retryOrDrop i e .mismatch⟩) _ _ _ s h

/-! The commands (R283 to R289). -/

theorem FifoElementsInv.expire {s : State} (h : FifoElementsInv s) : FifoElementsInv s.expire.2 := by
  rw [s.expire_frame]
  exact { h with }

theorem FifoElementsInv.command {s t : State} (h : FifoElementsInv s) (hfit : ResponsesFit s) (ht : CmdEffect s t) :
    FifoElementsInv t := by
  cases ht with
  | enqueue c => rw [s.enqueueCommand_frame c]; exact { h with }
  | expire w => exact { h.expire with }
  | maintain => exact { h.expire with }
  | harvest w => exact { (Deliverable.harvest ⟨h, hfit⟩).elements with }
  | popResp e q hq => exact ⟨fun x hx => h.responses x (by rw [hq]; exact List.mem_cons_of_mem e hx), h.records⟩
  | popRaw f q hq => exact ⟨h.responses, fun x hx => h.records x (by rw [hq]; exact List.mem_cons_of_mem f hx)⟩
  | result w => exact { h with }
  | clear => exact { h with }

/-! Completed frames (R175, R181). -/

/-- A frame that can stand in `rawq`: at most MAX_BUFFER_SIZE bytes, the last one the terminator and no other. -/
structure CompletedFrame (c : Config) (r : List Byte) : Prop where
  length : r.length ≤ c.maxBufferSize
  last : r.getLast? = some endOfFrame
  only : endOfFrame ∉ r.dropLast

/-- The terminator completes the frame in the assembly buffer (R173, R175). -/
theorem RegistryInv.completedFrame {s : State} (h : RegistryInv s) :
    CompletedFrame s.cfg (s.rxbuf ++ [endOfFrame]) where
  length := by rw [List.length_append, List.length_singleton]; exact h.rxbufShort
  last := List.getLast?_concat
  only := by rw [List.dropLast_concat]; exact h.rxbufOpen

/-- The record of a completed frame joins `rawq`, or `rawq` is full and keeps its elements (R181). -/
theorem FifoElementsInv.finishFrame {s : State} (h : FifoElementsInv s) (k : Kind) {r : List Byte} (m : Bool)
    (hr : CompletedFrame s.cfg r) : FifoElementsInv (s.finishFrame k r m) := by
  refine ⟨by simpa using h.responses, fun f hf => ?_⟩
  rw [State.finishFrame_rawq] at hf
  rw [State.finishFrame_cfg]
  split at hf
  · exact h.records f hf
  · rcases List.mem_append.1 hf with hf | hf
    · exact h.records f hf
    · rw [List.mem_singleton.1 hf]
      exact ⟨hr.length, hr.last, hr.only⟩

theorem FifoElementsInv.frame {r : List Byte} {s t : State} (h : FifoElementsInv s) (hr : CompletedFrame s.cfg r)
    (ht : FrameEffect r s t) : FifoElementsInv t := by
  cases ht with
  | record k => exact h.finishFrame k false hr
  | discard k c => exact { h.finishFrame k false hr with }
  | sync fnr =>
    rw [State.arbitrate_frame]
    exact { h.finishFrame .sync false hr with }
  | response _ =>
    have hm : FifoElementsInv (s.matchResponse (destuff r)).2 := by rw [s.matchResponse_frame]; exact { h with }
    exact hm.finishFrame .response _ (by rw [s.matchResponse_frame]; exact hr)

/-! Every agent's effect. -/

theorem FifoElementsInv.agent {s t : State} {a : Agent} (h : FifoElementsInv s) (hreg : RegistryInv s)
    (ha : AgentEffect s a t) : FifoElementsInv t := by
  cases ha with
  | frame q t _ _ _ ht =>
    have htake : FifoElementsInv { s with rxq := q, rxbuf := s.rxbuf ++ [endOfFrame] } := { h with }
    exact htake.frame hreg.completedFrame ht
  | finish => exact { (Deliverable.harvest ⟨h, hreg.responsesFit⟩).elements with }
  | command op q t _ _ ht =>
    have hpop : FifoElementsInv { s with hostq := q } := { h with }
    exact hpop.command hreg.responsesFit ht
  | read => rw [State.hostRead_frame]; exact { h with }
  | write => rw [State.hostWrite_frame]; exact { h with }
  | request => rw [State.runRequest_frame]; exact { h with }
  | wireRx => rw [State.wireRxStep_frame]; exact { h with }
  | rst => exact .of_empty rfl rfl
  | _ => exact { h with }

/-- Settles O57, by cases on the agents' effects. -/
theorem stepKeepsFifoElements : Obligations.StepKeepsFifoElements := by
  refine ⟨fun c now => .of_empty rfl rfl, ?_⟩
  intro s t hreg h hstep
  obtain ⟨a, -, ha⟩ := step_agentEffect hstep
  have hturn : FifoElementsInv { s with sched := s.sched.tail } := { h with }
  exact hturn.agent { hreg with } ha

end Sys2Proof.Machine
end

section
/-! SUPPORT. The staging writes of a request (R118, R119, R123): the staging registers they leave. -/

namespace Sys2Proof.Machine

/-! The descriptor words (R36, R118). -/

/-- The flag bits of a request's descriptor, ID_IN_PAYLOAD and RESP_EXP. -/
def descFlags (q : Request) : Byte := 0#6 ++ BitVec.ofBool q.idInPayload ++ BitVec.ofBool q.respExp

/-- ENQ_DESC0 of a request is four bytes: COMMAND, EXP_CODE, the flags and LEN. -/
theorem requestDesc0_eq_wordOfBytes (q : Request) :
    requestDesc0 q = wordOfBytes q.command q.expCode (descFlags q) (count8 q.payload.length) := by
  have hassoc : ∀ (l : Byte) (i p : BitVec 1), l ++ 0#6 ++ i ++ p = l ++ (0#6 ++ i ++ p) := by
    simp only [BitVec.append_assoc']
    simp
  rw [requestDesc0, hassoc]
  rfl

/-- The fields of a request's descriptor, byte by byte (R36). -/
theorem requestDesc0_bytes (q : Request) :
    wordByte (requestDesc0 q) 0 = q.command ∧ wordByte (requestDesc0 q) 1 = q.expCode ∧
      wordByte (requestDesc0 q) 2 = descFlags q ∧ wordByte (requestDesc0 q) 3 = count8 q.payload.length := by
  rw [requestDesc0_eq_wordOfBytes]
  exact wordByte_wordOfBytes ..

theorem descFlags_bits (q : Request) :
    (descFlags q).getLsbD 0 = q.respExp ∧ (descFlags q).getLsbD 1 = q.idInPayload := by
  have key : ∀ i p : Bool, (0#6 ++ BitVec.ofBool i ++ BitVec.ofBool p).getLsbD 0 = p ∧
      (0#6 ++ BitVec.ofBool i ++ BitVec.ofBool p).getLsbD 1 = i := by decide
  exact key _ _

/-- No reserved bit of ENQ_DESC0 is set in a request's descriptor, so the write keeps it whole (R36, R65). -/
theorem requestDesc0_and_mask (q : Request) : requestDesc0 q &&& 0xFF03FFFF#32 = requestDesc0 q := by
  have hmask : 0xFF03FFFF#32 = BitVec.allOnes 8 ++ 0x03#8 ++ BitVec.allOnes 8 ++ BitVec.allOnes 8 := by decide
  have hflags : ∀ i p : Bool, (0#6 ++ BitVec.ofBool i ++ BitVec.ofBool p) &&& 0x03#8 =
      0#6 ++ BitVec.ofBool i ++ BitVec.ofBool p := by decide
  rw [requestDesc0_eq_wordOfBytes, wordOfBytes, hmask, BitVec.and_append, BitVec.and_append, BitVec.and_append,
    BitVec.and_allOnes, BitVec.and_allOnes, BitVec.and_allOnes, descFlags, hflags]

/-- ENQ_DESC0 of a request, field by field (R118). -/
theorem requestDesc0_eq_or (q : Request) :
    requestDesc0 q =
      (BitVec.ofNat 32 q.payload.length <<< 24) ||| ((BitVec.ofBool q.idInPayload).setWidth 32 <<< 17) |||
        ((BitVec.ofBool q.respExp).setWidth 32 <<< 16) ||| (q.expCode.setWidth 32 <<< 8) ||| q.command.setWidth 32 := by
  have hlen : (count8 q.payload.length).setWidth 32 <<< 24 = BitVec.ofNat 32 q.payload.length <<< 24 := by
    apply BitVec.eq_of_toNat_eq
    simp [count8, Nat.shiftLeft_eq]
    omega
  have hflags : (descFlags q).setWidth 32 <<< 16 =
      ((BitVec.ofBool q.idInPayload).setWidth 32 <<< 17) ||| ((BitVec.ofBool q.respExp).setWidth 32 <<< 16) :=
    rawTags_setWidth _ _
  rw [requestDesc0_eq_wordOfBytes, wordOfBytes, append_bytes_eq_or, hlen, hflags, ← BitVec.or_assoc]

/-- ADDRESS fills the bits of ENQ_DESC1 that are not reserved (R36, R119). -/
theorem requestDesc1_and_mask (a : BitVec 16) : a.setWidth 32 &&& 0x0000FFFF#32 = a.setWidth 32 := by
  have hmask : 0x0000FFFF#32 = (BitVec.allOnes 16).setWidth 32 := by decide
  rw [hmask, ← BitVec.setWidth_and, BitVec.and_allOnes]

/-! The payload words (R36, R62). -/

/-- The ENQ_PAYLOAD words after the first `n` of them were written from the bytes `p`. -/
def stagedWords (v : Vector Word 8) (p : List Byte) (n : Nat) : Vector Word 8 :=
  Vector.ofFn fun k => if k.val < n then windowWord p k else v[k]

theorem stagedWords_zero (v : Vector Word 8) (p : List Byte) : stagedWords v p 0 = v := by
  ext k hk
  simp [stagedWords]

theorem stagedWords_succ (v : Vector Word 8) (p : List Byte) {n : Nat} (hn : n < 8) :
    (stagedWords v p n).set n (windowWord p n) = stagedWords v p (n + 1) := by
  ext k hk
  rcases Nat.lt_trichotomy k n with h | rfl | h
  · simp [stagedWords, h, Nat.ne_of_gt h, Nat.le_of_lt h]
  · simp [stagedWords]
  · simp [stagedWords, Nat.ne_of_lt h, Nat.not_lt_of_gt h, Nat.not_le_of_gt h]

/-! The writes. -/

theorem payloadOffset_toNat {k : Nat} (hk : k < 8) : (BitVec.ofNat 32 (0x020 + 4 * k)).toNat = 0x020 + 4 * k := by
  rw [BitVec.toNat_ofNat]
  omega

/-- The offset of an ENQ_PAYLOAD word names that word (R64). -/
theorem regAt_payloadOffset {k : Nat} (hk : k < 8) :
    inBlock (BitVec.ofNat 32 (0x020 + 4 * k)) = true ∧
      regAt (BitVec.ofNat 32 (0x020 + 4 * k)) = .enqPayload ⟨k, hk⟩ := by
  have hindex : (BitVec.ofNat 32 (0x020 + 4 * k)).toNat / 4 = 8 + k := by rw [payloadOffset_toNat hk]; omega
  refine ⟨(inBlock_iff _).2 (by omega), ?_⟩
  rw [regAt, hindex]
  exact regOfIndex_enqPayload ⟨k, hk⟩

theorem State.hostWrite_payload (s : State) {k : Nat} (hk : k < 8) (w : Word) :
    s.hostWrite (BitVec.ofNat 32 (0x020 + 4 * k)) w = { s with enqPayload := s.enqPayload.set k w } := by
  obtain ⟨hblock, hreg⟩ := regAt_payloadOffset hk
  rw [State.hostWrite, if_pos hblock, hreg]
  rfl

/-- The writes of the first `n` payload words. -/
theorem State.hostWrite_payloadWords (s : State) (p : List Byte) {n : Nat} (hn : n ≤ 8) :
    ((List.range n).map fun k => (BitVec.ofNat 32 (0x020 + 4 * k), windowWord p k)).foldl
        (fun s p => s.hostWrite p.1 p.2) s =
      { s with enqPayload := stagedWords s.enqPayload p n } := by
  induction n with
  | zero => rw [stagedWords_zero]; rfl
  | succ n ih =>
    rw [List.range_succ, List.map_append, List.foldl_append, ih (by omega)]
    simp only [List.map_cons, List.map_nil, List.foldl_cons, List.foldl_nil]
    rw [State.hostWrite_payload _ (by omega), stagedWords_succ _ _ (by omega)]

/-- The staging registers after the writes of a request that fits them; nothing else changes (R118, R119, R123). -/
theorem State.stage_eq (s : State) {q : Request} (h : q.payload.length ≤ 32) :
    s.stage q = { s with
      enqDesc0 := requestDesc0 q
      enqDesc1 := q.address.setWidth 32
      enqPayload := stagedWords s.enqPayload q.payload ((q.payload.length + 3) / 4) } := by
  have hdesc0 : ∀ (s : State) (w : Word), s.hostWrite 0x018#32 w = { s with enqDesc0 := w &&& 0xFF03FFFF#32 } :=
    fun _ _ => rfl
  have hdesc1 : ∀ (s : State) (w : Word), s.hostWrite 0x01C#32 w = { s with enqDesc1 := w &&& 0x0000FFFF#32 } :=
    fun _ _ => rfl
  rw [State.stage, requestWrites, List.foldl_append]
  simp only [List.foldl_cons, List.foldl_nil]
  rw [hdesc0, hdesc1, requestDesc0_and_mask, requestDesc1_and_mask, State.hostWrite_payloadWords _ _ (by omega)]

/-- A staged byte is the request's, up to the last word written (R62). -/
theorem stagedByte_stagedWords (s : State) (p : List Byte) (n : Nat) {i : Nat} (hi : i < 32) :
    State.stagedByte { s with enqPayload := stagedWords s.enqPayload p n } i =
      if i / 4 < n then p.getD i 0#8 else s.stagedByte i := by
  have hword : ∀ v : Vector Word 8, v.toList.getD (i / 4) 0#32 = v[i / 4]'(by omega) := by
    intro v
    simp [List.getD_eq_getElem?_getD, Nat.div_lt_iff_lt_mul, hi]
  unfold State.stagedByte
  rw [hword, hword]
  simp only [stagedWords, Vector.getElem_ofFn]
  split
  · rw [windowWord_byte _ _ (Nat.mod_lt _ (by decide)), Nat.div_add_mod]
  · rfl

/-- The staging registers hold the request (R118, R119, R123). -/
theorem State.stage_staged (s : State) {q : Request} (h : q.payload.length ≤ 32) : Staged s q (s.stage q) := by
  rw [s.stage_eq h]
  exact ⟨requestDesc0_eq_or q, rfl, fun i hi => stagedByte_stagedWords s q.payload _ hi, rfl⟩

end Sys2Proof.Machine
end

section
/-! SUPPORT. ENQUEUE (R212, R214, R282): the id, the appended entry, and the staged bytes it copies. -/

namespace Sys2Proof.Machine

/-- The fresh id is the one `allocate_id` gives out (R212). -/
theorem FreshId.allocateId {s : State} {id : Byte} (h : FreshId s id) : s.allocateId = some id := by
  obtain ⟨k, hk, rfl, hfree, hused⟩ := h
  rw [State.allocateId, List.find?_map, Option.map_eq_some_iff]
  refine ⟨k, List.find?_range_eq_some.2 ⟨?_, List.mem_range.2 hk, fun j hj => ?_⟩, rfl⟩
  · have hnot : ¬ s.inUse (idCandidate s.idCtr k) = true := fun hin => by
      obtain ⟨e, he, hid⟩ := (s.inUse_eq_true _).1 hin
      exact hfree e he hid
    simpa using hnot
  · have hin : s.inUse (idCandidate s.idCtr j) = true := (s.inUse_eq_true _).2 (hused j hj)
    simpa using hin

/-- RESULT of an ENQUEUE that appended, as a shifted field (R282). -/
theorem resultEnqueued_appended (id : Byte) : resultEnqueued id false = id.setWidth 32 <<< 8 := by
  have hbytes : resultEnqueued id false = 0x00#8 ++ 0x00#8 ++ id ++ 0x00#8 := by
    rw [resultEnqueued]
    rfl
  rw [hbytes, append_bytes_eq_or]
  simp

/-- An ENQUEUE with a legal length, an id, room and no coalesce target appends the new entry (R214, R282). -/
theorem State.enqueueCommand_appends {s : State} {c : Bool} {id : Byte} (hlen : s.badLength = false)
    (hid : s.allocateId = some id) (hroom : s.slots.length < s.cfg.fifoSize)
    (hkey : c = true → s.coalesceTarget = none) :
    s.enqueueCommand c = { s with
      idCtr := idAfter id
      slots := s.slots ++ [s.newEntry id]
      result := id.setWidth 32 <<< 8 } := by
  have hnone : (if c then s.coalesceTarget else none) = none := by
    split
    next hc => exact hkey hc
    next => rfl
  simp only [State.enqueueCommand, hlen, Bool.false_eq_true, if_false, hid, State.enqueueAs, hnone, hroom, if_true,
    resultEnqueued_appended]

/-! The staged bytes (R36, R62). -/

/-- Byte `i` of a list of words is in word i div 4, lane i mod 4. -/
theorem flatMap_wordBytes_getElem? (l : List Word) (i : Nat) :
    (l.flatMap wordBytes)[i]? = l[i / 4]?.map fun w => wordByte w (i % 4) := by
  induction l generalizing i with
  | nil => simp
  | cons w l ih =>
    rw [List.flatMap_cons]
    by_cases hi : i < 4
    · rw [List.getElem?_append_left hi, Nat.div_eq_of_lt hi, Nat.mod_eq_of_lt hi]
      interval_cases i <;> rfl
    · obtain ⟨j, rfl⟩ : ∃ j, i = j + 4 := ⟨i - 4, by omega⟩
      rw [List.getElem?_append_right (by simp [wordBytes]), Nat.add_div_right j (by decide), Nat.add_mod_right]
      exact ih j

theorem State.stagedBytes_getElem? (s : State) {i : Nat} (hi : i < 32) : s.stagedBytes[i]? = some (s.stagedByte i) := by
  have hword : i / 4 < s.enqPayload.toList.length := by rw [Vector.length_toList]; omega
  rw [State.stagedBytes, flatMap_wordBytes_getElem?, State.stagedByte, List.getD_eq_getElem?_getD,
    List.getElem?_eq_getElem hword]
  rfl

theorem exec_enqueueInstr (c : Bool) (s : State) : exec (enqueueInstr c) s = .next (s.enqueueCommand c) := by
  cases c <;> rfl

end Sys2Proof.Machine
end

section
/-! SUPPORT. The staging registers after a request's staging writes, as ENQUEUE reads them (R36, R118, R119). -/

namespace Sys2Proof.Machine

section
variable (s : State) {q : Request} (h : q.payload.length ≤ 32)
include h

theorem State.stage_allocateId : (s.stage q).allocateId = s.allocateId := by rw [s.stage_eq h]; rfl

theorem State.stage_descAddress : (s.stage q).descAddress = q.address := by
  rw [s.stage_eq h]
  simp [State.descAddress, ← BitVec.setWidth_eq_extractLsb']

theorem State.stage_descCommand : (s.stage q).descCommand = q.command := by
  rw [s.stage_eq h]
  exact (requestDesc0_bytes q).1

theorem State.stage_descExpCode : (s.stage q).descExpCode = q.expCode := by
  rw [s.stage_eq h]
  exact (requestDesc0_bytes q).2.1

theorem State.stage_descLen : (s.stage q).descLen = q.payload.length := by
  have hdesc : (s.stage q).descLen = (wordByte (requestDesc0 q) 3).toNat := by rw [s.stage_eq h]; rfl
  rw [hdesc, (requestDesc0_bytes q).2.2.2, count8, BitVec.toNat_ofNat]
  omega

theorem State.stage_flags :
    (s.stage q).descRespExp = q.respExp ∧ (s.stage q).descIdInPayload = q.idInPayload := by
  have hflag : ∀ i < 8, (requestDesc0 q).getLsbD (16 + i) = (descFlags q).getLsbD i := by
    intro i hi
    rw [← (requestDesc0_bytes q).2.2.1]
    simp [wordByte, hi]
  rw [s.stage_eq h]
  exact ⟨(hflag 0 (by decide)).trans (descFlags_bits q).1, (hflag 1 (by decide)).trans (descFlags_bits q).2⟩

/-- ENQUEUE copies the request's payload out of the staging registers (R119). -/
theorem State.stage_stagedBytes : (s.stage q).stagedBytes.take q.payload.length = q.payload := by
  refine List.ext_getElem? fun i => ?_
  by_cases hi : i < q.payload.length
  · rw [List.getElem?_take_of_lt hi, State.stagedBytes_getElem? _ (by omega), (s.stage_staged h).bytes i (by omega),
      if_pos (by omega), List.getD_eq_getElem?_getD, List.getElem?_eq_getElem hi, Option.getD_some]
  · rw [List.getElem?_eq_none (by simp; omega), List.getElem?_eq_none (by omega)]

theorem State.stage_stagedPayload (id : Byte) :
    (s.stage q).stagedPayload id = if q.idInPayload then q.payload.set 1 id else q.payload := by
  simp only [State.stagedPayload, s.stage_descLen h, s.stage_stagedBytes h, (s.stage_flags h).2]

/-- The entry an ENQUEUE makes after the staging writes is the request's (R214, R216). -/
theorem State.stage_newEntry (id : Byte) : RequestEntry s q id ((s.stage q).newEntry id) where
  id := rfl
  command := s.stage_descCommand h
  address := s.stage_descAddress h
  expCode := s.stage_descExpCode h
  respExp := (s.stage_flags h).1
  payload := s.stage_stagedPayload h id
  unsent := rfl
  sentTime := by rw [s.stage_eq h]; rfl
  resend := rfl
  resp := rfl

theorem State.stage_badLength (h3 : 3 ≤ q.payload.length) : (s.stage q).badLength = false := by
  have h1 : ¬ q.payload.length < 1 := by omega
  have h2 : ¬ q.payload.length < 2 := by omega
  have h32 : ¬ payloadMax < q.payload.length := Nat.not_lt_of_le h
  simp [State.badLength, s.stage_descLen h, h1, h2, h32]

/-- Without an entry of the request's command and address, an ENQUEUE.C after its staging finds no target (R214). -/
theorem State.stage_coalesceTarget (hkey : ∀ e ∈ s.slots, ¬ (e.command = q.command ∧ e.address = q.address)) :
    (s.stage q).coalesceTarget = none := by
  have hslots : (s.stage q).slots = s.slots := by rw [s.stage_eq h]
  rw [State.coalesceTarget, List.findIdx?_eq_none_iff, hslots, s.stage_descCommand h, s.stage_descAddress h]
  intro e he
  simpa using hkey e he

end

end Sys2Proof.Machine
end

section
/-! SUPPORT. A request's accesses as HOST steps (R67, R123, R280). -/

namespace Sys2Proof.Machine

/-- No staging write goes to CMD (R64, R123). -/
theorem requestWrites_not_cmd {q : Request} (h : q.payload.length ≤ 32) :
    ∀ p ∈ requestWrites q, ¬ (inBlock p.1 = true ∧ regAt p.1 = .cmd) := by
  intro p hp
  rcases List.mem_append.1 hp with hp | hp
  · rcases List.mem_pair.1 hp with rfl | rfl <;> simp only <;> decide
  · obtain ⟨k, hk, rfl⟩ := List.mem_map.1 hp
    rw [List.mem_range] at hk
    simp [(regAt_payloadOffset (k := k) (by omega)).2]

/-- The HOST's turn with a write to CMD as its next access runs the command it encodes (R280). -/
theorem step_hostCommand {s : State} {rest : List Agent} {a w : Word} {q : List HostOp} (hs : s.sched = .host :: rest)
    (hm : s.maint = false) (hq : s.hostq = .write a w :: q) (ha : inBlock a = true ∧ regAt a = .cmd) :
    step s = exec (decodeCmd w) { s with sched := rest, hostq := q } := by
  simp [step, State.schedStep, hs, State.runAgent, State.hostStep, hm, hq, State.hostAccess, ha]

/-- A run goes on from the state its first step answers. -/
theorem coreRun_succ {M : Host.Core} {s t : M.State} (h : M.step s = .next t) (n : Nat) :
    M.run (n + 1) s = M.run n t := by
  rw [Host.Core.run, h]

theorem run_succ_of_step {s t : State} (h : step s = .next t) (n : Nat) :
    Host.Core.run Sys2Proof.core (n + 1) s = Host.Core.run Sys2Proof.core n t :=
  coreRun_succ (M := Sys2Proof.core) (s := s) (t := t) h n

/-- `s` with other coming accesses of the HOST and other turns (log 1). -/
def State.withTurns (s : State) (ops : List HostOp) (agents : List Agent) : State :=
  { s with hostq := ops, sched := agents }

/-- A HOST write does not look at the coming accesses and turns. -/
theorem State.hostWrite_withTurns (s : State) (a w : Word) (ops : List HostOp) (agents : List Agent) :
    (s.withTurns ops agents).hostWrite a w = (s.hostWrite a w).withTurns ops agents := by
  unfold State.hostWrite
  split
  · cases regAt a <;> rfl
  · rfl

/-- Writes outside CMD as consecutive HOST steps: each is done at its turn. -/
theorem run_hostWrites {l : List (Word × Word)} (hl : ∀ p ∈ l, ¬ (inBlock p.1 = true ∧ regAt p.1 = .cmd)) (n : Nat)
    {s : State} (hm : s.maint = false) (ops : List HostOp) (agents : List Agent) :
    Host.Core.run Sys2Proof.core (n + l.length)
        (s.withTurns ((l.map fun p => HostOp.write p.1 p.2) ++ ops) (List.replicate l.length .host ++ agents)) =
      Host.Core.run Sys2Proof.core n ((l.foldl (fun s p => s.hostWrite p.1 p.2) s).withTurns ops agents) := by
  induction l generalizing s with
  | nil => rfl
  | cons p l ih =>
    have hp : ¬ (inBlock p.1 = true ∧ regAt p.1 = .cmd) := hl p List.mem_cons_self
    have hm' : (s.hostWrite p.1 p.2).maint = false := by rw [s.hostWrite_frame]; exact hm
    have hstep : step (s.withTurns (((p :: l).map fun p => HostOp.write p.1 p.2) ++ ops)
          (List.replicate (p :: l).length .host ++ agents)) =
        .next ((s.hostWrite p.1 p.2).withTurns ((l.map fun p => HostOp.write p.1 p.2) ++ ops)
          (List.replicate l.length .host ++ agents)) := by
      rw [← State.hostWrite_withTurns]
      exact step_hostWrite rfl hm rfl hp
    exact (run_succ_of_step hstep _).trans (ih (fun p hp => hl p (List.mem_cons_of_mem _ hp)) hm')

theorem decodeCmd_requestCmdWord (q : Request) : decodeCmd (requestCmdWord q) = enqueueInstr q.coalesce := by
  unfold requestCmdWord enqueueInstr
  cases q.coalesce <;> rfl

/-- The CMD write of a request, as one HOST step (R123, R280). -/
theorem step_requestCmd {s : State} (hm : s.maint = false) (q : Request) (ops : List HostOp) (agents : List Agent) :
    step (s.withTurns (.write cmdAddr (requestCmdWord q) :: ops) (.host :: agents)) =
      .next ((s.withTurns ops agents).enqueueCommand q.coalesce) := by
  have hstep := step_hostCommand (s := s.withTurns (.write cmdAddr (requestCmdWord q) :: ops) (.host :: agents))
    rfl hm rfl ⟨by decide, by decide⟩
  rw [hstep, decodeCmd_requestCmdWord, exec_enqueueInstr]
  rfl

/-- A request's accesses, taken one HOST step each, leave what the request leaves (R123). -/
theorem run_requestAccesses {s : State} {q : Request} (hm : s.maint = false) (hlen : q.payload.length ≤ 32) :
    Host.Core.run Sys2Proof.core (requestAccesses q).length
        (s.withTurns (requestAccesses q ++ s.hostq)
          (List.replicate (requestAccesses q).length .host ++ s.sched)) = .next (s.runRequest q) := by
  have hmstage : (s.stage q).maint = false := by rw [s.stage_frame]; exact hm
  have hturns : (s.stage q).withTurns s.hostq s.sched = s.stage q := by rw [s.stage_eq hlen]; rfl
  have hcmd : step ((s.stage q).withTurns (.write cmdAddr (requestCmdWord q) :: s.hostq) (.host :: s.sched)) =
      .next (s.runRequest q) := by
    rw [step_requestCmd hmstage, hturns]
    rfl
  have hcount : (requestAccesses q).length = 1 + (requestWrites q).length := by
    simp [requestAccesses, Nat.add_comm]
  have hops : requestAccesses q ++ s.hostq = ((requestWrites q).map fun p => HostOp.write p.1 p.2) ++
      (.write cmdAddr (requestCmdWord q) :: s.hostq) := by
    simp [requestAccesses]
  have hsched : List.replicate (1 + (requestWrites q).length) Agent.host ++ s.sched =
      List.replicate (requestWrites q).length .host ++ (.host :: s.sched) := by
    rw [Nat.add_comm, List.replicate_succ', List.append_assoc, List.singleton_append]
  rw [hcount, hops, hsched]
  exact (run_hostWrites (requestWrites_not_cmd hlen) 1 hm _ _).trans (run_succ_of_step hcmd 0)

end Sys2Proof.Machine
end

section
/-! PROOFS. The payload commands: each is its request, staged and enqueued (R96 to R103, R112, R113, R123; log 8). -/

namespace Sys2Proof.Machine

/-- A request that decodes is the template with a body that fits, or the short form (R96, R103, R124). -/
theorem decodeRequest_payload_length {q : Request} {i : Instr} (h : decodeRequest q = some i) :
    3 ≤ q.payload.length ∧ q.payload.length ≤ 32 := by
  unfold decodeRequest at h
  simp only at h
  split at h
  next state rest hp =>
    split at h
    · split at h
      next hrest => simp [hp, hrest.1]
      · cases h
    · cases h
  next b1 code body hp =>
    split at h
    next hbody =>
      simp only [hp, List.length_cons]
      omega
    · cases h
  · cases h

/-- The request of a well-formed payload command fits the staging registers. -/
theorem payload_length_of_wf {enforce : Bool} {i : Instr} {q : Request} (hq : encode i = .request q)
    (h : i.wf enforce = true) : 3 ≤ q.payload.length ∧ q.payload.length ≤ 32 :=
  decodeRequest_payload_length (decodeRequest_of_wf hq h)

/-- Settles O19: the staging writes, then the ENQUEUE. -/
theorem payloadCommandStagesAndEnqueues : Obligations.PayloadCommandStagesAndEnqueues := by
  intro s enforce i q hq hwf
  obtain ⟨-, hlen⟩ := payload_length_of_wf hq hwf
  exact ⟨s.stage q, s.runRequest q, s.stage_staged hlen, exec_of_encode_request hq s, exec_enqueueInstr _ _⟩

/-- The rows of the spec are the encodings (R96, R98 to R103, R112, R113). -/
theorem encode_of_payloadRow {i : Instr} {q : Request} (h : payloadRow i = some q) : encode i = .request q := by
  cases i <;> simp only [payloadRow, Option.some.injEq, reduceCtorEq] at h <;> subst h
  case paySetSwitchState t st => cases st <;> rfl
  all_goals rfl

/-- Settles O20: the row's request, and the entry that an ENQUEUE makes of it. -/
theorem payloadCommandAppendsItsRequest : Obligations.PayloadCommandAppendsItsRequest := by
  intro s enforce i q hrow hwf
  have hq : encode i = .request q := encode_of_payloadRow hrow
  refine ⟨hq, fun id hfresh hroom hkey => ?_⟩
  obtain ⟨h3, hlen⟩ := payload_length_of_wf hq hwf
  refine ⟨s.runRequest q, (s.stage q).newEntry id, exec_of_encode_request hq s, s.stage_newEntry hlen id, ?_⟩
  have hstage := s.stage_eq hlen
  have hid : (s.stage q).allocateId = some id := (s.stage_allocateId hlen).trans hfresh.allocateId
  have hfits : (s.stage q).slots.length < (s.stage q).cfg.fifoSize := by rw [hstage]; exact hroom
  have hrun : s.runRequest q = _ := State.enqueueCommand_appends (s.stage_badLength hlen h3) hid hfits
    fun hc => s.stage_coalesceTarget hlen (hkey hc)
  rw [hrun, hstage]
  rfl

/-- Settles O21: the staging writes, then the CMD write, one HOST step each. -/
theorem payloadCommandEqualsItsHostAccesses : Obligations.PayloadCommandEqualsItsHostAccesses := by
  intro s enforce i q hq hwf hm
  obtain ⟨-, hlen⟩ := payload_length_of_wf hq hwf
  exact ⟨s.runRequest q, exec_of_encode_request hq s, run_requestAccesses hm hlen⟩

end Sys2Proof.Machine
end

section
/-! PROOFS. Stuffing and destuffing (R140 to R143, R148). -/

namespace Sys2Proof

/-! Stuffing one byte (R140). -/

theorem stuffByte_escape {b : Byte} (h : escByte ≤ b) : stuffByte b = [escByte, (b &&& 0x0F#8) ||| 0x70#8] := if_pos h

theorem stuffByte_plain {b : Byte} (h : ¬ escByte ≤ b) : stuffByte b = [b] := if_neg h

/-- The second byte of an escape pair is one of 0x7A to 0x7F. -/
theorem escape_follower_range {b : Byte} (h : escByte ≤ b) :
    0x7A#8 ≤ (b &&& 0x0F#8) ||| 0x70#8 ∧ (b &&& 0x0F#8) ||| 0x70#8 ≤ 0x7F#8 := by
  revert b; decide

/-! Destuffing (R142), in front of a rest that is not empty: there an escape always has its follower. -/

/-- Destuffing takes a stuffed byte back, in both forms. -/
theorem destuff_stuffByte_append (b : Byte) {l : List Byte} (hl : l ≠ []) :
    destuff (stuffByte b ++ l) = b :: destuff l := by
  obtain ⟨c, l, rfl⟩ := List.exists_cons_of_ne_nil hl
  by_cases h : escByte ≤ b
  · rw [stuffByte_escape h, List.cons_append, List.cons_append, List.nil_append, destuff_escape, escape_restores h]
  · have hb : b ≠ escByte := by rintro rfl; exact h (BitVec.le_refl _)
    rw [stuffByte_plain h, List.cons_append, List.nil_append, destuff_plain hb]

/-- Destuffing undoes stuffing in front of anything that is not empty. -/
theorem destuff_stuff_append (p : List Byte) {l : List Byte} (hl : l ≠ []) :
    destuff (stuff p ++ l) = p ++ destuff l := by
  induction p with
  | nil => rfl
  | cons b p ih =>
    rw [stuff_cons, List.append_assoc, destuff_stuffByte_append b (List.append_ne_nil_of_right_ne_nil _ hl), ih,
      List.cons_append]

/-- Bytes before the first escape pass (R143). -/
theorem destuff_append_of_no_escape {l m : List Byte} (hl : escByte ∉ l) (hm : m ≠ []) :
    destuff (l ++ m) = l ++ destuff m := by
  induction l with
  | nil => rfl
  | cons a l ih =>
    rw [List.mem_cons, not_or] at hl
    obtain ⟨ha, hl⟩ := hl
    obtain ⟨b, t, hbt⟩ := List.exists_cons_of_ne_nil (List.append_ne_nil_of_right_ne_nil l hm)
    rw [List.cons_append, List.cons_append, ← ih hl, hbt, destuff_plain (Ne.symm ha)]

/-- A destuffed frame always ends with the terminator. -/
theorem destuff_getLast? (r : List Byte) : (destuff r).getLast? = some endOfFrame := by
  fun_induction destuff r with
  | case1 => rfl
  | case2 => rfl
  | case3 a b rest h ih => rw [List.getLast?_cons, ih, Option.getD_some]
  | case4 a b rest h ih => rw [List.getLast?_cons, ih, Option.getD_some]

/-- A good head is the id pair and a type byte, none of them an escape, with at least one byte after it (R177, R178). -/
theorem exists_of_headOk {r : List Byte} (h : headOk r = true) :
    ∃ c m, r = [mpId, mpId, c] ++ m ∧ escByte ∉ [mpId, mpId, c] ∧ m ≠ [] := by
  obtain ⟨⟨h0, h1⟩, hlen, htype⟩ := (headOk_iff r).1 h
  match r, hlen with
  | a :: b :: c :: d :: l, _ =>
    simp only [List.getElem?_cons_zero, List.getElem?_cons_succ, Option.some.injEq] at h0 h1 htype
    refine ⟨c, d :: l, by rw [h0, h1]; rfl, ?_, List.cons_ne_nil _ _⟩
    rcases htype with rfl | rfl <;> decide

/-- Settles O28: the terminator is the rest that is not empty. -/
theorem destuffUndoesStuff : Obligations.DestuffUndoesStuff :=
  fun p => destuff_stuff_append p (List.cons_ne_nil _ _)

/-- Settles O32: the head of a frame that passed the checks holds no escape. -/
theorem destuffKeepsTheHead : Obligations.DestuffKeepsTheHead := by
  intro r hr
  have hpos : 1 ≤ r.length := List.length_pos_iff.2 (by rintro rfl; cases hr)
  have hle : (destuff r).length ≤ r.length := max_eq_left hpos ▸ destuff_length_le r
  refine ⟨List.length_pos_iff.2 (destuff_ne_nil r), hle, destuff_getLast? r, fun hhead => ?_⟩
  obtain ⟨c, m, rfl, hesc, hm⟩ := exists_of_headOk hhead
  rw [destuff_append_of_no_escape hesc hm]
  rfl

end Sys2Proof
end

section
/-! PROOFS. Built frames: the checksum identity and the length (R144 to R147, R149, R150). -/

namespace Sys2Proof

/-- The checksum completes the sum of what it seals to 0x01, in either form. -/
theorem sum8_append_chkEncode (l : List Byte) : sum8 (l ++ chkEncode (chkValue l)) = 0x01#8 := by
  rw [sum8_append, sum8_chkEncode, chkValue, BitVec.add_comm, BitVec.sub_add_cancel]

theorem sealFrame_drop_dropLast {body : List Byte} (h : 2 ≤ body.length) :
    ((sealFrame body).drop 2).dropLast = body.drop 2 ++ chkEncode (chkValue (body.drop 2)) := by
  rw [sealFrame, List.append_assoc, List.drop_append_of_le_length h, ← List.append_assoc, List.dropLast_concat]

/-- The checksum identity, for every sealed body and not only the master's (R149). -/
theorem sum8_sealFrame {body : List Byte} (h : 2 ≤ body.length) :
    sum8 ((sealFrame body).drop 2).dropLast = 0x01#8 := by
  rw [sealFrame_drop_dropLast h, sum8_append_chkEncode]

theorem stuff_length (p : List Byte) : (stuff p).length = p.length + p.countP (fun b => decide (0xFA#8 ≤ b)) := by
  induction p with
  | nil => rfl
  | cons b p ih =>
    rw [stuff_cons, List.length_append, stuffByte_length, ih, List.length_cons, List.countP_cons]
    by_cases h : 0xFA#8 ≤ b
    · simp only [h, decide_true, if_true]; omega
    · simp only [h, decide_false, if_false, Bool.false_eq_true]; omega

/-- The length of a built frame: head, stuffed payload, checksum and terminator. -/
theorem buildFrame_length (nr : Byte) (p : List Byte) :
    (buildFrame nr p).length = 4 + (stuff p).length +
      (chkEncode (0x01#8 - sum8 (0xFE#8 :: (nr &&& 0x7F#8) :: stuff p))).length + 1 := by
  simp only [buildFrame_eq, List.length_cons, List.length_append, List.length_nil]
  omega

/-- Settles O29, from the identity for sealed bodies. -/
theorem builtFramesValidate : Obligations.BuiltFramesValidate := by
  intro nr p
  have hsum : sum8 ((buildFrame nr p).drop 2).dropLast = 0x01#8 := sum8_sealFrame (by simp)
  have hlen : 4 ≤ (buildFrame nr p).length := by rw [buildFrame_length]; omega
  exact ⟨hsum, (validate_iff _).2 ⟨hlen, hsum⟩⟩

/-- Settles O30: at most every payload byte is escaped, and the checksum takes one byte or two. -/
theorem builtFrameLength : Obligations.BuiltFrameLength := by
  intro nr p hpos hmax
  have hlen := buildFrame_length nr p
  have hchk := chkEncode_length (0x01#8 - sum8 (0xFE#8 :: (nr &&& 0x7F#8) :: stuff p))
  have hesc : p.countP (fun b => decide (0xFA#8 ≤ b)) ≤ p.length := List.countP_le_length
  rw [stuff_length, ← Nat.add_assoc] at hlen
  exact ⟨⟨_, hlen, rfl⟩, by omega, by omega⟩

end Sys2Proof
end

section
/-! PROOFS. Transparency: where the bytes above 0xFA stand in a built frame (R151). -/

namespace Sys2Proof

/-- A byte that stands once in a list stands at its own index only. -/
theorem getElem?_eq_some_iff_of_not_mem {l m : List Byte} {x : Byte} (hl : x ∉ l) (hm : x ∉ m) (j : Nat) :
    (l ++ x :: m)[j]? = some x ↔ j = l.length := by
  constructor
  · intro h
    rcases Nat.lt_trichotomy j l.length with hlt | heq | hgt
    · rw [List.getElem?_append_left hlt] at h
      exact absurd (List.mem_of_getElem? h) hl
    · exact heq
    · obtain ⟨k, rfl⟩ := Nat.exists_eq_add_of_lt hgt
      rw [List.getElem?_append_right (by omega), Nat.add_assoc, Nat.add_sub_cancel_left,
        List.getElem?_cons_succ] at h
      exact absurd (List.mem_of_getElem? h) hm
  · rintro rfl
    rw [List.getElem?_append_right (Nat.le_refl _), Nat.sub_self, List.getElem?_cons_zero]

theorem not_mem_stuff {x : Byte} (h : ¬ x ≤ 0xFA#8) (p : List Byte) : x ∉ stuff p :=
  fun hx => h (mem_stuff_le hx)

theorem not_mem_chkEncode {x : Byte} (h : ¬ x ≤ 0xFA#8) (c : Byte) : x ∉ chkEncode c :=
  fun hx => h (mem_chkEncode_le hx)

/-- The frame number is below 0x80 (R146). -/
theorem ne_frameNumber {x : Byte} (h : ¬ x ≤ 0xFA#8) (nr : Byte) : x ≠ nr &&& 0x7F#8 := by
  rintro rfl
  have hle : (nr &&& 0x7F#8).toNat ≤ 0x7F := Nat.and_le_right
  exact h (BitVec.le_def.2 (Nat.le_trans hle (by decide)))

/-- Between the type byte and the terminator a built frame holds no byte above 0xFA. -/
theorem buildFrame_eq_append (nr : Byte) (p : List Byte) :
    ∃ m, (∀ x : Byte, ¬ x ≤ 0xFA#8 → x ∉ m) ∧ buildFrame nr p = [0x98#8, 0xF7#8, 0xFE#8] ++ m ++ [0xFF#8] := by
  rw [buildFrame_eq]
  generalize 0x01#8 - sum8 (0xFE#8 :: (nr &&& 0x7F#8) :: stuff p) = c
  refine ⟨(nr &&& 0x7F#8) :: (stuff p ++ chkEncode c), fun x hx hmem => ?_, by simp⟩
  rcases List.mem_cons.1 hmem with hnr | hmem
  · exact ne_frameNumber hx nr hnr
  · exact List.not_mem_append (not_mem_stuff hx p) (not_mem_chkEncode hx c) hmem

/-- R151: 0xFF stands only at the last index of a built frame. -/
theorem buildFrame_terminator_iff (nr : Byte) (p : List Byte) (j : Nat) :
    (buildFrame nr p)[j]? = some 0xFF#8 ↔ j + 1 = (buildFrame nr p).length := by
  obtain ⟨m, hm, hframe⟩ := buildFrame_eq_append nr p
  have hfront : 0xFF#8 ∉ [0x98#8, 0xF7#8, 0xFE#8] ++ m := List.not_mem_append (by decide) (hm _ (by decide))
  rw [hframe, getElem?_eq_some_iff_of_not_mem hfront List.not_mem_nil, List.length_append (bs := [_]),
    List.length_singleton, Nat.add_right_cancel_iff]

/-- R151: 0xFE stands only at index 2 of a built frame. -/
theorem buildFrame_typeByte_iff (nr : Byte) (p : List Byte) (j : Nat) :
    (buildFrame nr p)[j]? = some 0xFE#8 ↔ j = 2 := by
  obtain ⟨m, hm, hframe⟩ := buildFrame_eq_append nr p
  have hback : 0xFE#8 ∉ m ++ [0xFF#8] := List.not_mem_append (hm _ (by decide)) (by decide)
  rw [hframe]
  exact getElem?_eq_some_iff_of_not_mem (l := [0x98#8, 0xF7#8]) (by decide) hback j

/-- R151: in a stuffed payload 0xFA opens an escape pair. -/
theorem stuff_escape_follower {p : List Byte} {j : Nat} (h : (stuff p)[j]? = some 0xFA#8) :
    ∃ f, (stuff p)[j + 1]? = some f ∧ 0x7A#8 ≤ f ∧ f ≤ 0x7F#8 := by
  induction p generalizing j with
  | nil => cases h
  | cons b p ih =>
    by_cases hb : escByte ≤ b
    · have hrange := escape_follower_range hb
      rw [stuff_cons, stuffByte_escape hb] at h ⊢
      match j with
      | 0 => exact ⟨_, rfl, hrange⟩
      | 1 =>
        have hf : (b &&& 0x0F#8) ||| 0x70#8 = 0xFA#8 := Option.some.inj h
        exact absurd (hf ▸ hrange.2) (by decide)
      | j + 2 => exact ih h
    · rw [stuff_cons, stuffByte_plain hb] at h ⊢
      match j with
      | 0 => exact absurd (Option.some.inj h ▸ BitVec.le_refl _) hb
      | j + 1 => exact ih h

/-- Settles O31, from the bound on stuffed and checksum bytes. -/
theorem builtFramesAreTransparent : Obligations.BuiltFramesAreTransparent := fun nr p j =>
  ⟨buildFrame_terminator_iff nr p j, buildFrame_typeByte_iff nr p j, fun _ hb => mem_stuff_le (List.mem_of_getElem? hb),
    stuff_escape_follower, fun c => ⟨not_mem_chkEncode (by decide) c, not_mem_chkEncode (by decide) c⟩⟩

end Sys2Proof
end

section
/-! SUPPORT. What a completed frame adds to the counters (R40, R176, R179, R181), and the common processing of every kind as
one law: the frame is recorded and counted, and `rxbuf` is emptied (R182). -/

namespace Sys2Proof.Machine

/-! `CountersGain`. -/

/-- A bump is the gain of one count (R40). -/
theorem State.bump_gain (s : State) (c : Counter) : CountersGain s (s.bump c) [c] := fun d => by
  rw [State.bump_counters, Counters.get_bump, List.count_singleton]
  by_cases h : c = d <;> simp [h]

theorem CountersGain.of_counters_eq {s t : State} (h : t.counters = s.counters) : CountersGain s t [] := fun c => by
  simp [h]

theorem CountersGain.trans {s t u : State} {l m : List Counter} (hst : CountersGain s t l) (htu : CountersGain t u m) :
    CountersGain s u (l ++ m) := fun c => by
  rw [htu c, hst c, List.count_append, BitVec.ofNat_add, BitVec.add_assoc]

/-- The order in which counters are counted does not matter. -/
theorem CountersGain.perm {s t : State} {l m : List Counter} (h : CountersGain s t l) (hp : l.Perm m) :
    CountersGain s t m := fun c => by
  rw [h c, hp.count_eq]

/-! The common processing (R176). -/

/-- CNT_CHK_FAIL, for a frame that gets as far as the checksum and fails it (R177, R179). -/
def judgedCounters (r : List Byte) : List Counter := if headOk r then checksumCounters r else []

theorem judgedCounters_of_headOk {r : List Byte} (h : headOk r = true) : judgedCounters r = checksumCounters r := if_pos h

theorem judgedCounters_of_not_headOk {r : List Byte} (h : headOk r = false) : judgedCounters r = [] := by
  simp [judgedCounters, h]

/-- The tag `chk_ok` is the checksum's verdict for a frame that gets as far as the checksum (R177). -/
theorem chkOk_of_headOk {r : List Byte} (h : headOk r = true) : chkOk r = validate r := by simp [chkOk, h]

theorem chkOk_of_not_headOk {r : List Byte} (h : headOk r = false) : chkOk r = false := by simp [chkOk, h]

theorem State.checksumEvent_gain (s : State) (r : List Byte) : CountersGain s (s.checksumEvent r) (judgedCounters r) := by
  unfold State.checksumEvent judgedCounters checksumCounters
  cases headOk r <;> cases validate r
  case true.false => exact s.bump_gain .chkFail
  all_goals exact .of_counters_eq rfl

theorem State.pushRaw_gain (s : State) (r : List Byte) (k : Kind) (m : Bool) :
    CountersGain s (s.pushRaw r k m) (if s.rawq.length = s.cfg.rawFifoDepth then [.rawDrop] else []) := by
  unfold State.pushRaw
  split
  · exact s.bump_gain .rawDrop
  · exact .of_counters_eq rfl

/-- Every completed frame is counted, and its failed checksum or lost record too. -/
theorem State.finishFrame_gain (s : State) (k : Kind) (r : List Byte) (m : Bool) :
    CountersGain s (s.finishFrame k r m) (frameCounters s ++ judgedCounters r) := by
  have hjudge := (s.bump_gain .frame).trans (State.checksumEvent_gain _ r)
  have hpush := hjudge.trans (State.pushRaw_gain _ r k m)
  rw [State.checksumEvent_rawq, State.checksumEvent_cfg, State.bump_rawq, State.bump_cfg] at hpush
  exact CountersGain.perm hpush (List.perm_append_comm.cons _)

/-- From `s` to `t` a frame is recorded as `f` and counted in `evs`, `rxbuf` is emptied, and nothing else changes (R176, R181,
R182). -/
def OnlyRecords (s : State) (f : RawRec) (evs : List Counter) (t : State) : Prop :=
  Recorded s t f ∧ CountersGain s t evs ∧ t = { s with rxbuf := [], rawq := t.rawq, counters := t.counters }

theorem State.finishFrame_onlyRecords (s : State) (k : Kind) (r : List Byte) (m : Bool) :
    OnlyRecords s { bytes := r, kind := k, chkOk := chkOk r, matched := m } (frameCounters s ++ judgedCounters r)
      (s.finishFrame k r m) :=
  ⟨s.finishFrame_rawq k r m, s.finishFrame_gain k r m, s.finishFrame_frame k r m⟩

/-- The record of a frame that gets as far as the checksum shows the checksum's verdict. -/
theorem State.finishFrame_judged (s : State) (k : Kind) {r : List Byte} (m : Bool) (h : headOk r = true) :
    OnlyRecords s { bytes := r, kind := k, chkOk := validate r, matched := m } (frameCounters s ++ checksumCounters r)
      (s.finishFrame k r m) := by
  rw [← chkOk_of_headOk h, ← judgedCounters_of_headOk h]
  exact s.finishFrame_onlyRecords k r m

/-- A frame that fails an earlier test is recorded with `chk_ok` 0, and its checksum is not judged. -/
theorem State.finishFrame_unjudged (s : State) (k : Kind) {r : List Byte} (m : Bool) (h : headOk r = false) :
    OnlyRecords s { bytes := r, kind := k, chkOk := false, matched := m } (frameCounters s) (s.finishFrame k r m) := by
  have hrec := s.finishFrame_onlyRecords k r m
  rwa [chkOk_of_not_headOk h, judgedCounters_of_not_headOk h, List.append_nil] at hrec

/-- A kind's own counter comes beside the frame's (R199 to R201). -/
theorem OnlyRecords.bump {s t : State} {f : RawRec} {evs : List Counter} (h : OnlyRecords s f evs t) (c : Counter) :
    OnlyRecords s f (evs ++ [c]) (t.bump c) := by
  obtain ⟨hrec, hgain, hframe⟩ := h
  refine ⟨hrec, hgain.trans (t.bump_gain c), ?_⟩
  unfold State.bump
  rw [hframe]

theorem OnlyRecords.perm {s t : State} {f : RawRec} {l m : List Counter} (h : OnlyRecords s f l t) (hp : l.Perm m) :
    OnlyRecords s f m t := by
  obtain ⟨hrec, hgain, hframe⟩ := h
  exact ⟨hrec, hgain.perm hp, hframe⟩

end Sys2Proof.Machine
end

section
/-! PROOFS. The kinds VBFE only records (R191, R193 to R202). -/

namespace Sys2Proof.Machine

theorem headOk_of_accepted {enforce : Bool} {r : List Byte} (h : accepted enforce r = true) : headOk r = true :=
  ((accepted_iff enforce r).1 h).1

theorem headOk_of_syncType {enforce : Bool} {r : List Byte} (h : syncType enforce r = true) : headOk r = true :=
  headOk_of_accepted (Bool.and_eq_true_iff.1 h).1

theorem headOk_of_dataType {enforce : Bool} {r : List Byte} (h : dataType enforce r = true) : headOk r = true :=
  headOk_of_accepted (Bool.and_eq_true_iff.1 h).1

theorem headOk_of_dataKind {enforce : Bool} {k : Byte} {low : Nat} {r : List Byte}
    (h : dataKind enforce k low r = true) : headOk r = true := by
  obtain ⟨-, hdata, -, -⟩ := (dataKind_iff ..).1 h
  exact headOk_of_dataType hdata

/-- A forwarded kind is nothing but the common processing (R191, R193 to R198). -/
theorem exec_forwarded {r : List Byte} {i : Instr} {k : Kind} (h : (i, k) ∈ forwardedKinds r) (s : State) :
    exec i s = .next (s.finishFrame k r false) := by
  simp only [forwardedKinds, List.mem_cons, Prod.mk.injEq, List.not_mem_nil, or_false] at h
  rcases h with ⟨rfl, rfl⟩ | ⟨rfl, rfl⟩ | ⟨rfl, rfl⟩ | ⟨rfl, rfl⟩ | ⟨rfl, rfl⟩ | ⟨rfl, rfl⟩ | ⟨rfl, rfl⟩ <;> rfl

/-- A forwarded kind has passed the start, length and type checks (R104). -/
theorem headOk_of_forwarded {enforce : Bool} {r : List Byte} {i : Instr} {k : Kind} (h : (i, k) ∈ forwardedKinds r)
    (hwf : i.wf enforce = true) : headOk r = true := by
  simp only [forwardedKinds, List.mem_cons, Prod.mk.injEq, List.not_mem_nil, or_false] at h
  rcases h with ⟨rfl, -⟩ | ⟨rfl, -⟩ | ⟨rfl, -⟩ | ⟨rfl, -⟩ | ⟨rfl, -⟩ | ⟨rfl, -⟩ | ⟨rfl, -⟩
  · obtain ⟨-, hsync, -⟩ := (wf_rxSyncOther_iff ..).1 hwf
    exact headOk_of_syncType hsync
  iterate 5 exact headOk_of_dataKind hwf
  · obtain ⟨-, hdata, -⟩ := (wf_rxDataOther_iff ..).1 hwf
    exact headOk_of_dataType hdata

/-- Settles O13: a forwarded kind is the common processing of a frame whose checksum is judged. -/
theorem forwardedKindsAreOnlyRecorded : Obligations.ForwardedKindsAreOnlyRecorded := by
  intro s enforce r i k hk hwf
  exact ⟨_, exec_forwarded hk s, s.finishFrame_judged k false (headOk_of_forwarded hk hwf)⟩

theorem headOk_false_of_badStart {r : List Byte} (h : startOk r = false) : headOk r = false := by simp [headOk, h]

theorem headOk_false_of_short {r : List Byte} (h : r.length < 4) : headOk r = false := by
  rw [← Bool.not_eq_true, headOk_iff]
  rintro ⟨-, hlen, -⟩
  omega

theorem headOk_false_of_badType {r : List Byte} (hsync : r[2]? ≠ some syncFrame) (hdata : r[2]? ≠ some dataFrame) :
    headOk r = false := by
  simp [headOk, hsync, hdata]

/-- SHORT: the checksum is judged when the frame is SHORT only once destuffed, and not when its raw length is below 4 (R179,
R201). -/
theorem State.finishFrame_short (s : State) {r : List Byte} (h : r.length < 4 ∨ headOk r = true) :
    OnlyRecords s { bytes := r, kind := .short, chkOk := decide (4 ≤ r.length) && validate r, matched := false }
      (frameCounters s ++ .short :: if r.length < 4 then [] else checksumCounters r)
      ((s.finishFrame .short r false).bump .short) := by
  rcases h with hlen | hhead
  · rw [decide_eq_false (by omega), Bool.false_and, if_pos hlen]
    exact (s.finishFrame_unjudged .short false (headOk_false_of_short hlen)).bump .short
  · obtain ⟨-, hlen, -⟩ := (headOk_iff r).1 hhead
    have hrec := (s.finishFrame_judged .short false hhead).bump .short
    rw [List.append_assoc] at hrec
    rw [decide_eq_true hlen, Bool.true_and, if_neg (by omega)]
    exact hrec.perm ((List.perm_append_singleton _ _).append_left _)

/-- Settles O14, kind by kind. -/
theorem discardedKindsAreCountedAndRecorded : Obligations.DiscardedKindsAreCountedAndRecorded := by
  intro s enforce r i k ok evs hk hwf
  simp only [discardedKinds, List.mem_cons, Prod.mk.injEq, List.not_mem_nil, or_false] at hk
  rcases hk with ⟨rfl, rfl, rfl, rfl⟩ | ⟨rfl, rfl, rfl, rfl⟩ | ⟨rfl, rfl, rfl, rfl⟩ | ⟨rfl, rfl, rfl, rfl⟩
  · obtain ⟨-, hstart⟩ := (wf_rxBadStart_iff ..).1 hwf
    exact ⟨_, rfl, (s.finishFrame_unjudged .badStart false (headOk_false_of_badStart hstart)).bump .badStart⟩
  · obtain ⟨-, -, -, hsync, hdata⟩ := (wf_rxBadType_iff ..).1 hwf
    exact ⟨_, rfl, (s.finishFrame_unjudged .badType false (headOk_false_of_badType hsync hdata)).bump .badType⟩
  · obtain ⟨-, -, hraw | ⟨hdata, -⟩⟩ := (wf_rxShort_iff ..).1 hwf
    · exact ⟨_, rfl, s.finishFrame_short (.inl hraw)⟩
    · exact ⟨_, rfl, s.finishFrame_short (.inr (headOk_of_dataType hdata))⟩
  · obtain ⟨-, hhead, hbad, -⟩ := (wf_rxChkDiscard_iff ..).1 hwf
    have hrec := s.finishFrame_judged .chkDiscard false hhead
    rw [checksumCounters, hbad] at hrec
    exact ⟨_, rfl, hrec⟩

end Sys2Proof.Machine
end

section
/-! PROOFS. Responses (R192, R218). -/

namespace Sys2Proof.Machine

theorem takesResponse_iff (d : List Byte) (e : Entry) : takesResponse d e = true ↔ Takes d e := by
  simp [takesResponse, Takes, and_assoc]

/-- The least index with a property is what a search for it finds. -/
theorem LeastIndex.findIdx? {l : List Entry} {p : Entry → Prop} {q : Entry → Bool} {i : Nat} {e : Entry}
    (h : LeastIndex l p i e) (hq : ∀ e, q e = true ↔ p e) : l.findIdx? q = some i := by
  obtain ⟨hget, hp, hleast⟩ := h
  obtain ⟨hi, rfl⟩ := List.getElem?_eq_some_iff.1 hget
  refine List.findIdx?_eq_some_iff_getElem.2 ⟨hi, (hq _).2 hp, fun j hj hqj => ?_⟩
  exact hleast j _ hj (List.getElem?_eq_getElem (by omega)) ((hq _).1 hqj)

/-- A response goes whole into the first entry that takes it (R218). -/
theorem State.matchResponse_of_leastIndex {s : State} {d : List Byte} {i : Nat} {e : Entry}
    (h : LeastIndex s.slots (Takes d) i e) :
    s.matchResponse d = (true, { s with slots := s.slots.set i { e with resp := d } }) := by
  have hfind : s.slots.findIdx? (takesResponse d) = some i := h.findIdx? (takesResponse_iff d)
  obtain ⟨hget, -, -⟩ := h
  rw [State.matchResponse, hfind]
  simp [List.modify_eq_set_getElem?, hget]

/-- A response no entry takes is counted, and changes no entry (R218). -/
theorem State.matchResponse_of_no_taker {s : State} {d : List Byte} (h : ∀ e ∈ s.slots, ¬ Takes d e) :
    s.matchResponse d = (false, s.bump .unmatched) := by
  have hnone : s.slots.findIdx? (takesResponse d) = none :=
    List.findIdx?_eq_none_iff.2 fun e he => by rw [← Bool.not_eq_true, takesResponse_iff]; exact h e he
  rw [State.matchResponse, hnone]
  rfl

/-- RESPONSE is the match and then the common processing with its verdict (R192). -/
theorem exec_rxResponse {s t : State} {r : List Byte} {m : Bool} (h : s.matchResponse (destuff r) = (m, t)) :
    exec (.rxResponse r) s = .next (t.finishFrame .response r m) := by
  simp only [exec, execRxResponse, h]

/-- Settles O15: the match stores the response, and the common processing records it. -/
theorem responseIsStoredInItsEntry : Obligations.ResponseIsStoredInItsEntry := by
  intro s enforce r i e hwf hleast
  exact ⟨_, exec_rxResponse (State.matchResponse_of_leastIndex hleast),
    State.finishFrame_judged _ .response true (headOk_of_dataKind hwf)⟩

/-- Settles O16: the match counts the response, and the common processing records it. -/
theorem unmatchedResponseChangesNoEntry : Obligations.UnmatchedResponseChangesNoEntry := by
  intro s enforce r hwf hno
  obtain ⟨hrec, hgain, hframe⟩ := (s.bump .unmatched).finishFrame_judged .response false (headOk_of_dataKind hwf)
  refine ⟨_, exec_rxResponse (State.matchResponse_of_no_taker hno), hrec, ?_, hframe⟩
  exact ((s.bump_gain .unmatched).trans hgain).perm List.perm_append_comm

end Sys2Proof.Machine
end

section
/-! PROOFS. The SYNC detector (R185). -/

namespace Sys2Proof

/-- A completed frame decodes to a kind exactly when that kind's conditions hold (R104, R177). -/
theorem decodeFrame_eq_iff_wf {enforce : Bool} {r : List Byte} {i : Instr} (ht : terminated r = true)
    (hr : encode i = .frame r) : decodeFrame enforce r = i ↔ i.wf enforce = true :=
  ⟨fun h => h ▸ decodeFrame_wf enforce ht, decodeFrame_of_wf hr⟩

/-- The conditions 1 to 3 of R185: start, type, and a checksum that is valid or not enforced. -/
theorem syncType_iff (enforce : Bool) (r : List Byte) : syncType enforce r = true ↔
    (r[0]? = some mpId ∧ r[1]? = some mpId) ∧ (4 ≤ r.length ∧ r[2]? = some syncFrame) ∧
      (validate r = true ∨ enforce = false) := by
  simp only [syncType, accepted, Bool.and_eq_true, headOk_iff, Bool.or_eq_true, Bool.not_eq_true', beq_iff_eq]
  tauto

/-- Settles O25: the decoder answers SYNC exactly on the frames whose conditions hold, and these are the five of R185. -/
theorem syncDetectorConditions : Obligations.SyncDetectorConditions := by
  intro enforce r hlast
  have ht : terminated r = true := (terminated_iff r).2 hlast
  calc decode enforce (.frame r) = Except.ok (.rxSync r)
    _ ↔ decodeFrame enforce r = .rxSync r := by rw [decode, if_pos ((terminated_iff r).1 ht), Except.ok.injEq]
    _ ↔ (Instr.rxSync r).wf enforce = true := decodeFrame_eq_iff_wf ht rfl
    _ ↔ syncType enforce r = true ∧ destuffedLen r = 10 ∧ (destuff r)[4]? = some syncByte := by
      rw [wf_rxSync_iff, ht, eq_self, true_and]
    _ ↔ _ := by rw [syncType_iff]; exact and_assoc.trans (and_congr_right' and_assoc)

end Sys2Proof
end

section
/-! PROOFS. The bytes that come in: WIRE_RX (R171) and the ENGINE in RX (R172 to R174). -/

namespace Sys2Proof.Machine

/-- A step is the turn of the agent at the head of the schedule, which it takes away (R8, log 1). -/
theorem step_scheduled {s : State} {a : Agent} {rest : List Agent} (h : s.sched = a :: rest) :
    step s = State.runAgent { s with sched := rest } a := by
  simp only [step, State.schedStep, h]

/-- The ENGINE's turn in RX. -/
theorem step_engineRx {s : State} {rest : List Agent} (hs : s.sched = .engine :: rest) (he : s.eng = .rx) :
    step s = State.engineRx { s with sched := rest } := by
  rw [step_scheduled hs, State.runAgent, State.engineStep, he]

theorem State.engineRx_paused {s : State} (h : s.pause = true) : s.engineRx = .next { s with eng := .paused } := if_pos h

theorem State.engineRx_idle {s : State} (h : s.pause = false) (hq : s.rxq = []) : s.engineRx = .next s := by
  simp [State.engineRx, h, hq]

theorem State.engineRx_byte {s : State} {b : Byte} {q : List Byte} (h : s.pause = false) (hq : s.rxq = b :: q) :
    s.engineRx = State.intake { s with rxq := q } b := by
  simp [State.engineRx, h, hq]

/-- A byte that is no terminator joins the assembly buffer while it does not fill it (R173). -/
theorem State.intake_append {s : State} {b : Byte} (hb : b ≠ endOfFrame)
    (hl : s.rxbuf.length + 1 ≠ s.cfg.maxBufferSize) : s.intake b = .next { s with rxbuf := s.rxbuf ++ [b] } := by
  simp [State.intake, hb, hl]

/-- A byte that is no terminator and fills the assembly buffer empties it, and is counted (R174). -/
theorem State.intake_overflow {s : State} {b : Byte} (hb : b ≠ endOfFrame)
    (hl : s.rxbuf.length + 1 = s.cfg.maxBufferSize) :
    s.intake b = .next (State.rxbufOverflow { s with rxbuf := s.rxbuf ++ [b] }) := by
  simp [State.intake, hb, hl]

/-- Settles O33: the pause, the empty `rxq`, and the two ways a byte is taken. -/
theorem engineIntakesOneByte : Obligations.EngineIntakesOneByte := by
  intro s rest hs he
  rw [step_engineRx hs he]
  refine ⟨fun hp => ?pause, fun hp hq => ?empty, fun b q hp hq hb => ⟨fun hl => ?byte, fun hl => ?overflow⟩⟩
  case pause => exact State.engineRx_paused hp
  case empty => exact State.engineRx_idle hp hq
  case byte =>
    rw [State.engineRx_byte (s := { s with sched := rest }) hp hq]
    exact State.intake_append hb hl
  case overflow =>
    rw [State.engineRx_byte (s := { s with sched := rest }) hp hq]
    exact State.intake_overflow hb hl

/-- WIRE_RX's turn with a byte on the bus. -/
theorem step_wireRx {s : State} {rest : List Agent} {b : Byte} {q : List Byte} (hs : s.sched = .wireRx :: rest)
    (hq : s.busq = b :: q) : step s = .next (State.wireRxStep { s with sched := rest, busq := q } b) := by
  simp only [step_scheduled hs, State.runAgent, hq]

theorem State.wireRxStep_of_dir {s : State} (h : s.dir = true) (b : Byte) : s.wireRxStep b = s := if_pos h

theorem State.wireRxStep_full {s : State} (h : s.dir = false) (hq : s.rxq.length = s.cfg.rxFifoDepth) (b : Byte) :
    s.wireRxStep b = s.bump .rxqOvr := by
  rw [State.wireRxStep, h, if_neg Bool.false_ne_true, if_pos hq]
  rfl

theorem State.wireRxStep_room {s : State} (h : s.dir = false) (hq : s.rxq.length ≠ s.cfg.rxFifoDepth) (b : Byte) :
    s.wireRxStep b = { s with rxq := s.rxq ++ [b] } := by
  rw [State.wireRxStep, h, if_neg Bool.false_ne_true, if_neg hq]

/-- Settles O36: the three places a byte can meet (R171). -/
theorem wireRxDeliversOneByte : Obligations.WireRxDeliversOneByte := by
  intro s rest b q hs hq
  rw [step_wireRx hs hq]
  refine ⟨fun hdir => ?lost, fun hdir hfull => ?overrun, fun hdir hroom => ?queued⟩
  case lost => rw [State.wireRxStep_of_dir]; exact hdir
  case overrun => rw [State.wireRxStep_full]; exacts [rfl, hdir, hfull]
  case queued => rw [State.wireRxStep_room]; exacts [hdir, hroom]

end Sys2Proof.Machine
end

section
/-! SUPPORT. The scans of EXPIRE and HARVEST (R219 to R223), turn by turn: the entries already examined stand before those
still to examine. -/

namespace Sys2Proof.Machine

/-- A scan of the registry of `s` under way: `seen` is examined, `l` is still to examine, and `q` and `c` are `respq` and
the counters by now. -/
def State.scanning (s : State) (seen l : List Entry) (q : List RespRec) (c : Counters) : State :=
  { s with slots := seen ++ l, respq := q, counters := c }

@[simp] theorem State.scanning_timedOut (s : State) (seen l : List Entry) (q : List RespRec) (c : Counters) (e : Entry) :
    (s.scanning seen l q c).timedOut e = s.timedOut e := rfl

@[simp] theorem State.scanning_cfg (s : State) (seen l : List Entry) (q : List RespRec) (c : Counters) :
    (s.scanning seen l q c).cfg = s.cfg := rfl

@[simp] theorem State.scanning_respq (s : State) (seen l : List Entry) (q : List RespRec) (c : Counters) :
    (s.scanning seen l q c).respq = q := rfl

/-- An entry that stays as it is joins the examined ones. -/
theorem State.scanning_pass (s : State) (seen : List Entry) (e : Entry) (l : List Entry) (q : List RespRec)
    (c : Counters) : s.scanning seen (e :: l) q c = s.scanning (seen ++ [e]) l q c := by
  simp only [State.scanning, List.append_assoc, List.singleton_append]

@[simp] theorem State.scanning_slots_getElem? (s : State) (seen : List Entry) (e : Entry) (l : List Entry) (q : List RespRec)
    (c : Counters) : (s.scanning seen (e :: l) q c).slots[seen.length]? = some e := getElem?_scan seen e l

section
variable {s : State} {e : Entry}

theorem State.afterExpiry_fresh (h : s.timedOut e = false) : s.afterExpiry e = some e := by simp [State.afterExpiry, h]

theorem State.afterExpiry_retry (h : s.timedOut e = true) (hr : e.resend.toNat < s.cfg.maxResend) :
    s.afterExpiry e = some (e.retried s.nowMs) := by
  rw [State.afterExpiry, if_pos h, if_neg (Nat.not_le.2 hr)]
  rfl

theorem State.afterExpiry_drop (h : s.timedOut e = true) (hr : s.cfg.maxResend ≤ e.resend.toNat) :
    s.afterExpiry e = none := by
  rw [State.afterExpiry, if_pos h, if_pos hr]

theorem State.afterMismatch_waiting (h : e.resp = []) : s.afterMismatch e = some e := if_pos h

theorem State.afterMismatch_retry (h : e.resp ≠ []) (hr : e.resend.toNat < s.cfg.maxResend) :
    s.afterMismatch e = some (e.retried s.nowMs) := by
  rw [State.afterMismatch, if_neg h, if_neg (Nat.not_le.2 hr)]
  rfl

theorem State.afterMismatch_drop (h : e.resp ≠ []) (hr : s.cfg.maxResend ≤ e.resend.toNat) :
    s.afterMismatch e = none := by
  rw [State.afterMismatch, if_neg h, if_pos hr]

theorem hasAnswer_of_no_resp (h : e.resp = []) : HasAnswer e = false := by simp [HasAnswer, h]

theorem resp_ne_nil_of_hasAnswer (h : HasAnswer e = true) : e.resp ≠ [] := fun hnil => by
  simp [hasAnswer_of_no_resp hnil] at h

end

/-! The counters a scan adds (R40). -/

theorem count32_cons (p : Entry → Bool) (e : Entry) (l : List Entry) :
    count32 p (e :: l) = (if p e then 1#32 else 0#32) + count32 p l := by
  rw [count32, List.countP_cons, Nat.add_comm, BitVec.ofNat_add]
  split <;> rfl

theorem count32_perm (p : Entry → Bool) {l m : List Entry} (h : l.Perm m) : count32 p l = count32 p m := by
  rw [count32, h.countP_eq, count32]

/-- The counters `c` after an expiry scan of `l` (R219, R221). -/
def State.expiryCounters (s : State) (c : Counters) (l : List Entry) : Counters :=
  { c with
    retryTimeout := c.retryTimeout + count32 (fun e => s.timedOut e && decide (e.resend.toNat < s.cfg.maxResend)) l
    drop := c.drop + count32 (fun e => s.timedOut e && decide (s.cfg.maxResend ≤ e.resend.toNat)) l }

/-- The counters `c` after a harvest of `l` in which `stalls` entries stalled (R219, R220). -/
def State.harvestCounters (s : State) (c : Counters) (stalls : Nat) (l : List Entry) : Counters :=
  { c with
    respStall := c.respStall + BitVec.ofNat 32 stalls
    retryMismatch := c.retryMismatch +
      count32 (fun e => !e.resp.isEmpty && !HasAnswer e && decide (e.resend.toNat < s.cfg.maxResend)) l
    drop := c.drop +
      count32 (fun e => !e.resp.isEmpty && !HasAnswer e && decide (s.cfg.maxResend ≤ e.resend.toNat)) l }

theorem State.expiryCounters_nil (s : State) (c : Counters) : s.expiryCounters c [] = c := by
  simp [State.expiryCounters, count32]

theorem State.harvestCounters_nil (s : State) (c : Counters) : s.harvestCounters c 0 [] = c := by
  simp [State.harvestCounters, count32]

theorem State.expiryCounters_lastToFront (s : State) (c : Counters) (l : List Entry) :
    s.expiryCounters c (lastToFront l) = s.expiryCounters c l := by
  simp only [State.expiryCounters, count32_perm _ (lastToFront_perm l)]

theorem State.harvestCounters_lastToFront (s : State) (c : Counters) (n : Nat) (l : List Entry) :
    s.harvestCounters c n (lastToFront l) = s.harvestCounters c n l := by
  simp only [State.harvestCounters, count32_perm _ (lastToFront_perm l)]

section
variable {s : State} {e : Entry} {c : Counters} {n : Nat} {l : List Entry}

theorem State.expiryCounters_fresh (h : s.timedOut e = false) : s.expiryCounters c (e :: l) = s.expiryCounters c l := by
  simp [State.expiryCounters, count32_cons, h]

theorem State.expiryCounters_retry (h : s.timedOut e = true) (hr : e.resend.toNat < s.cfg.maxResend) :
    s.expiryCounters c (e :: l) = s.expiryCounters (c.bump .retryTimeout) l := by
  simp [State.expiryCounters, Counters.bump, count32_cons, h, hr, BitVec.add_assoc]

theorem State.expiryCounters_drop (h : s.timedOut e = true) (hr : s.cfg.maxResend ≤ e.resend.toNat) :
    s.expiryCounters c (e :: l) = s.expiryCounters (c.bump .drop) l := by
  simp [State.expiryCounters, Counters.bump, count32_cons, h, hr, BitVec.add_assoc]

theorem State.harvestCounters_waiting (h : e.resp = []) :
    s.harvestCounters c n (e :: l) = s.harvestCounters c n l := by
  simp [State.harvestCounters, count32_cons, h]

theorem State.harvestCounters_emit (h : HasAnswer e = true) :
    s.harvestCounters c n (e :: l) = s.harvestCounters c n l := by
  simp [State.harvestCounters, count32_cons, h]

theorem State.harvestCounters_stall (h : HasAnswer e = true) :
    s.harvestCounters c (n + 1) (e :: l) = s.harvestCounters (c.bump .respStall) n l := by
  have hsum : c.respStall + BitVec.ofNat 32 (n + 1) = c.respStall + 1#32 + BitVec.ofNat 32 n := by
    rw [Nat.add_comm, BitVec.ofNat_add, BitVec.add_assoc]
  rw [State.harvestCounters_emit h]
  simp only [State.harvestCounters, Counters.bump, hsum]

theorem State.harvestCounters_retry (hne : e.resp ≠ []) (h : HasAnswer e = false)
    (hr : e.resend.toNat < s.cfg.maxResend) :
    s.harvestCounters c n (e :: l) = s.harvestCounters (c.bump .retryMismatch) n l := by
  simp [State.harvestCounters, Counters.bump, count32_cons, hne, h, hr, BitVec.add_assoc]

theorem State.harvestCounters_drop (hne : e.resp ≠ []) (h : HasAnswer e = false)
    (hr : s.cfg.maxResend ≤ e.resend.toNat) :
    s.harvestCounters c n (e :: l) = s.harvestCounters (c.bump .drop) n l := by
  simp [State.harvestCounters, Counters.bump, count32_cons, hne, h, hr, BitVec.add_assoc]

end

/-! The turns. -/

section
variable {s : State} {e : Entry} {seen l : List Entry} {q : List RespRec} {c : Counters} {fuel k : Nat}

theorem State.retryOrDrop_scanning_retry {cause : RetryCause} {n : Counter} (hn : cause.event.counter = some n)
    (hr : e.resend.toNat < s.cfg.maxResend) :
    (s.scanning seen (e :: l) q c).retryOrDrop seen.length e cause =
      (true, s.scanning (seen ++ [e.retried s.nowMs]) l q (c.bump n)) := by
  rcases (s.scanning seen (e :: l) q c).retryOrDrop_cases seen.length e cause with ⟨hle, -⟩ | ⟨-, n', hn', h⟩
  · exact absurd hr (Nat.not_lt.2 hle)
  · cases hn.symm.trans hn'
    rw [h]
    simp only [State.scanning, set_scan]

theorem State.retryOrDrop_scanning_drop (cause : RetryCause) (hr : s.cfg.maxResend ≤ e.resend.toNat) :
    (s.scanning seen (e :: l) q c).retryOrDrop seen.length e cause =
      (false, s.scanning seen (lastToFront l) q (c.bump .drop)) := by
  rcases (s.scanning seen (e :: l) q c).retryOrDrop_cases seen.length e cause with ⟨-, h⟩ | ⟨hlt, -⟩
  · rw [h]
    simp only [State.scanning, swapRemove_scan]
  · exact absurd hr (Nat.not_le.2 hlt)

/-- An entry that is not timed out is passed over. -/
theorem State.expireFrom_fresh (h : s.timedOut e = false) :
    State.expireFrom (fuel + 1) seen.length k (s.scanning seen (e :: l) q c) =
      State.expireFrom fuel (seen ++ [e]).length k (s.scanning (seen ++ [e]) l q c) := by
  rw [← s.scanning_pass]
  simp [State.expireFrom, h]

theorem State.expireFrom_retry (h : s.timedOut e = true) (hr : e.resend.toNat < s.cfg.maxResend) :
    State.expireFrom (fuel + 1) seen.length k (s.scanning seen (e :: l) q c) =
      State.expireFrom fuel (seen ++ [e.retried s.nowMs]).length (k + 1)
        (s.scanning (seen ++ [e.retried s.nowMs]) l q (c.bump .retryTimeout)) := by
  have hkept := State.retryOrDrop_scanning_retry (seen := seen) (l := l) (q := q) (c := c) (cause := .timeout) rfl hr
  simp [State.expireFrom, h, hkept]

theorem State.expireFrom_drop (h : s.timedOut e = true) (hr : s.cfg.maxResend ≤ e.resend.toNat) :
    State.expireFrom (fuel + 1) seen.length k (s.scanning seen (e :: l) q c) =
      State.expireFrom fuel seen.length (k + 1) (s.scanning seen (lastToFront l) q (c.bump .drop)) := by
  simp [State.expireFrom, h, State.retryOrDrop_scanning_drop _ hr]

/-- An entry without a response is passed over. -/
theorem State.harvestFrom_waiting (h : e.resp = []) :
    State.harvestFrom (fuel + 1) seen.length k (s.scanning seen (e :: l) q c) =
      State.harvestFrom fuel (seen ++ [e]).length k (s.scanning (seen ++ [e]) l q c) := by
  rw [← s.scanning_pass]
  simp [State.harvestFrom, h]

/-- An answered entry stalls while `respq` is full. -/
theorem State.harvestFrom_stall (h : HasAnswer e = true) (hq : q.length = s.cfg.respFifoDepth) :
    State.harvestFrom (fuel + 1) seen.length k (s.scanning seen (e :: l) q c) =
      State.harvestFrom fuel (seen ++ [e]).length k (s.scanning (seen ++ [e]) l q (c.bump .respStall)) := by
  have ha : e.answered = true := h
  have hstall : (s.scanning seen (e :: l) q c).raise .respStall = s.scanning seen (e :: l) q (c.bump .respStall) := rfl
  rw [← s.scanning_pass]
  simp [State.harvestFrom, resp_ne_nil_of_hasAnswer h, ha, hq, hstall]

/-- An answered entry moves to a `respq` that is not full. -/
theorem State.harvestFrom_emit (h : HasAnswer e = true) (hq : q.length ≠ s.cfg.respFifoDepth) :
    State.harvestFrom (fuel + 1) seen.length k (s.scanning seen (e :: l) q c) =
      State.harvestFrom fuel seen.length (k + 1) (s.scanning seen (lastToFront l) (q ++ [e.respRec]) c) := by
  have ha : e.answered = true := h
  have hemit : State.remove { s.scanning seen (e :: l) q c with respq := q ++ [e.respRec] } seen.length =
      s.scanning seen (lastToFront l) (q ++ [e.respRec]) c := by
    simp only [State.scanning, State.remove, swapRemove_scan]
  simp [State.harvestFrom, resp_ne_nil_of_hasAnswer h, ha, hq]
  exact congrArg _ hemit

theorem State.harvestFrom_retry (hne : e.resp ≠ []) (h : HasAnswer e = false) (hr : e.resend.toNat < s.cfg.maxResend) :
    State.harvestFrom (fuel + 1) seen.length k (s.scanning seen (e :: l) q c) =
      State.harvestFrom fuel (seen ++ [e.retried s.nowMs]).length k
        (s.scanning (seen ++ [e.retried s.nowMs]) l q (c.bump .retryMismatch)) := by
  have ha : e.answered = false := h
  have hkept := State.retryOrDrop_scanning_retry (seen := seen) (l := l) (q := q) (c := c) (cause := .mismatch) rfl hr
  simp [State.harvestFrom, hne, ha, hkept]

theorem State.harvestFrom_drop (hne : e.resp ≠ []) (h : HasAnswer e = false) (hr : s.cfg.maxResend ≤ e.resend.toNat) :
    State.harvestFrom (fuel + 1) seen.length k (s.scanning seen (e :: l) q c) =
      State.harvestFrom fuel seen.length k (s.scanning seen (lastToFront l) q (c.bump .drop)) := by
  have ha : e.answered = false := h
  simp [State.harvestFrom, hne, ha, State.retryOrDrop_scanning_drop _ hr]

end

end Sys2Proof.Machine
end

section
/-! SUPPORT. The whole scans (R220 to R223): what they leave, emit and count. -/

namespace Sys2Proof.Machine

/-- An expiry scan leaves what `ScanLeaves` says, and counts the entries it finds timed out (R221, R223). -/
theorem State.expireFrom_scanning (s : State) (q : List RespRec) :
    ∀ (fuel : Nat) (seen l : List Entry) (k : Nat) (c : Counters), l.length = fuel →
      ∃ left, ScanLeaves s.afterExpiry l left ∧
        State.expireFrom fuel seen.length k (s.scanning seen l q c) =
          (k + l.countP s.timedOut, s.scanning seen left q (s.expiryCounters c l)) := by
  intro fuel
  induction fuel with
  | zero =>
    intro seen l k c hl
    rw [List.length_eq_zero_iff.1 hl]
    exact ⟨[], .done, by rw [State.expireFrom, s.expiryCounters_nil]; rfl⟩
  | succ fuel ih =>
    intro seen l k c hl
    obtain ⟨e, l, rfl⟩ := List.exists_cons_of_length_eq_add_one hl
    have hl : l.length = fuel := Nat.succ.inj hl
    cases ht : s.timedOut e
    case false =>
      obtain ⟨left, hleaves, heq⟩ := ih (seen ++ [e]) l k c hl
      refine ⟨e :: left, .keep (State.afterExpiry_fresh ht) hleaves, ?_⟩
      rw [State.expireFrom_fresh ht, heq, State.expiryCounters_fresh ht,
        List.countP_cons_of_neg (by simp [ht]), s.scanning_pass]
    case true =>
      have hcount : k + (e :: l).countP s.timedOut = k + 1 + l.countP s.timedOut := by
        rw [List.countP_cons_of_pos ht]
        omega
      rw [hcount]
      rcases Nat.lt_or_ge e.resend.toNat s.cfg.maxResend with hr | hr
      · obtain ⟨left, hleaves, heq⟩ := ih (seen ++ [e.retried s.nowMs]) l (k + 1) (c.bump .retryTimeout) hl
        refine ⟨e.retried s.nowMs :: left, .keep (State.afterExpiry_retry ht hr) hleaves, ?_⟩
        rw [State.expireFrom_retry ht hr, heq, State.expiryCounters_retry ht hr, s.scanning_pass]
      · obtain ⟨left, hleaves, heq⟩ := ih seen (lastToFront l) (k + 1) (c.bump .drop) (by simp [hl])
        refine ⟨left, .remove (State.afterExpiry_drop ht hr) hleaves, ?_⟩
        rw [State.expireFrom_drop ht hr, heq, State.expiryCounters_drop ht hr,
          s.expiryCounters_lastToFront, (lastToFront_perm l).countP_eq]

/-- What EXPIRE finds and leaves (R221). -/
theorem State.expire_leaves (s : State) :
    ∃ left, ScanLeaves s.afterExpiry s.slots left ∧
      s.expire = (s.slots.countP s.timedOut,
        { s with slots := left, counters := s.expiryCounters s.counters s.slots }) := by
  obtain ⟨left, hleaves, heq⟩ := s.expireFrom_scanning s.respq s.slots.length [] s.slots 0 s.counters rfl
  rw [Nat.zero_add] at heq
  exact ⟨left, hleaves, heq⟩

/-- Up to order, a scan leaves what becomes of each entry. -/
theorem ScanLeaves.perm {f : Entry → Option Entry} {l left : List Entry} (h : ScanLeaves f l left) :
    left.Perm (l.filterMap f) := by
  induction h with
  | done => exact .refl _
  | keep h _ ih => rw [List.filterMap_cons_some h]; exact ih.cons _
  | remove h _ ih => rw [List.filterMap_cons_none h]; exact ih.trans ((lastToFront_perm _).filterMap f)

/-- `n` is the room that `respq`, now `q`, has for the answers among `l`: the rest of its depth, or as much as ever needed
where it is past its depth, since only a `respq` of exactly its depth stalls (log 12). -/
def State.Room (s : State) (q : List RespRec) (l : List Entry) (n : Nat) : Prop :=
  q.length + n = s.cfg.respFifoDepth ∨ (s.cfg.respFifoDepth < q.length ∧ l.length ≤ n)

section
variable {s : State} {q : List RespRec} {e : Entry} {l : List Entry} {n : Nat}

theorem State.Room.tail (h : s.Room q (e :: l) n) : s.Room q l n :=
  h.imp_right fun ⟨hq, hl⟩ => ⟨hq, Nat.le_of_succ_le hl⟩

theorem State.Room.perm {m : List Entry} (h : s.Room q l n) (hp : m.Perm l) : s.Room q m n :=
  h.imp_right fun ⟨hq, hl⟩ => ⟨hq, hp.length_eq ▸ hl⟩

theorem State.Room.eq_zero_of_full (h : s.Room q l n) (hq : q.length = s.cfg.respFifoDepth) : n = 0 := by
  rcases h with h | ⟨h, -⟩ <;> omega

/-- An entry that `respq` has room for takes one place of it. -/
theorem State.Room.emit (h : s.Room q (e :: l) n) (hq : q.length ≠ s.cfg.respFifoDepth) (r : RespRec) :
    ∃ m, n = m + 1 ∧ s.Room (q ++ [r]) l m := by
  refine ⟨n - 1, ?_, ?_⟩
  · rcases h with h | ⟨-, h⟩
    · omega
    · rw [List.length_cons] at h; omega
  · rw [State.Room, List.length_append, List.length_singleton]
    rcases h with h | ⟨h, hl⟩
    · exact .inl (by omega)
    · rw [List.length_cons] at hl; exact .inr ⟨by omega, by omega⟩

end

/-- A harvest leaves and emits what `HarvestLeaves` says, and counts the entries it emits (R220, R223). -/
theorem State.harvestFrom_scanning (s : State) :
    ∀ (fuel : Nat) (seen l : List Entry) (k n : Nat) (q : List RespRec) (c : Counters), l.length = fuel → s.Room q l n →
      ∃ left out stalls, HarvestLeaves s n l left out ∧ out.length + stalls = l.countP HasAnswer ∧
        State.harvestFrom fuel seen.length k (s.scanning seen l q c) =
          (k + out.length, s.scanning seen left (q ++ out.map Entry.respRec) (s.harvestCounters c stalls l)) := by
  intro fuel
  induction fuel with
  | zero =>
    intro seen l k n q c hl _
    rw [List.length_eq_zero_iff.1 hl]
    refine ⟨[], [], 0, .done, rfl, ?_⟩
    rw [State.harvestFrom, s.harvestCounters_nil, List.map_nil, List.append_nil]
    rfl
  | succ fuel ih =>
    intro seen l k n q c hl hroom
    obtain ⟨e, l, rfl⟩ := List.exists_cons_of_length_eq_add_one hl
    have hl : l.length = fuel := Nat.succ.inj hl
    have hlast : (lastToFront l).length = fuel := by simp [hl]
    cases ha : HasAnswer e
    case true =>
      have hcount : (e :: l).countP HasAnswer = l.countP HasAnswer + 1 := List.countP_cons_of_pos ha
      by_cases hq : q.length = s.cfg.respFifoDepth
      · obtain rfl := hroom.eq_zero_of_full hq
        obtain ⟨left, out, stalls, hleaves, hsum, heq⟩ := ih (seen ++ [e]) l k 0 q (c.bump .respStall) hl hroom.tail
        refine ⟨e :: left, out, stalls + 1, .stall ha hleaves, by omega, ?_⟩
        rw [State.harvestFrom_stall ha hq, heq, State.harvestCounters_stall ha, s.scanning_pass]
      · obtain ⟨m, rfl, hm⟩ := hroom.emit hq e.respRec
        obtain ⟨left, out, stalls, hleaves, hsum, heq⟩ := ih seen (lastToFront l) (k + 1) m (q ++ [e.respRec]) c hlast
          (hm.perm (lastToFront_perm l))
        rw [(lastToFront_perm l).countP_eq] at hsum
        refine ⟨left, e :: out, stalls, .emit ha hleaves, by rw [List.length_cons]; omega, ?_⟩
        rw [State.harvestFrom_emit ha hq, heq, State.harvestCounters_emit ha,
          s.harvestCounters_lastToFront, List.length_cons, List.map_cons, List.append_assoc, List.singleton_append,
          Nat.add_right_comm, Nat.add_assoc]
    case false =>
      have hcount : (e :: l).countP HasAnswer = l.countP HasAnswer := List.countP_cons_of_neg (by simp [ha])
      rw [hcount]
      by_cases hresp : e.resp = []
      · obtain ⟨left, out, stalls, hleaves, hsum, heq⟩ := ih (seen ++ [e]) l k n q c hl hroom.tail
        refine ⟨e :: left, out, stalls, .keep ha (State.afterMismatch_waiting hresp) hleaves, hsum, ?_⟩
        rw [State.harvestFrom_waiting hresp, heq, State.harvestCounters_waiting hresp,
          s.scanning_pass]
      · rcases Nat.lt_or_ge e.resend.toNat s.cfg.maxResend with hr | hr
        · obtain ⟨left, out, stalls, hleaves, hsum, heq⟩ := ih (seen ++ [e.retried s.nowMs]) l k n q
            (c.bump .retryMismatch) hl hroom.tail
          refine ⟨e.retried s.nowMs :: left, out, stalls, .keep ha (State.afterMismatch_retry hresp hr) hleaves, hsum, ?_⟩
          rw [State.harvestFrom_retry hresp ha hr, heq, State.harvestCounters_retry hresp ha hr,
            s.scanning_pass]
        · obtain ⟨left, out, stalls, hleaves, hsum, heq⟩ := ih seen (lastToFront l) k n q (c.bump .drop) hlast
            (hroom.tail.perm (lastToFront_perm l))
          rw [(lastToFront_perm l).countP_eq] at hsum
          refine ⟨left, out, stalls, .drop ha (State.afterMismatch_drop hresp hr) hleaves, hsum, ?_⟩
          rw [State.harvestFrom_drop hresp ha hr, heq, State.harvestCounters_drop hresp ha hr,
            s.harvestCounters_lastToFront]

/-- What HARVEST emits, leaves and counts (R220), with room for `n` responses. -/
theorem State.harvest_leaves {s : State} {n : Nat} (h : s.Room s.respq s.slots n) :
    ∃ left out stalls, HarvestLeaves s n s.slots left out ∧ out.length + stalls = s.slots.countP HasAnswer ∧
      s.harvest = (out.length, { s with
        slots := left
        respq := s.respq ++ out.map Entry.respRec
        counters := s.harvestCounters s.counters stalls s.slots }) := by
  obtain ⟨left, out, stalls, hleaves, hsum, heq⟩ :=
    s.harvestFrom_scanning s.slots.length [] s.slots 0 n s.respq s.counters rfl h
  rw [Nat.zero_add] at heq
  exact ⟨left, out, stalls, hleaves, hsum, heq⟩

/-- Up to order, a harvest with room for `n` splits the answered entries into emitted and stalled ones, the first as many as
fit, and leaves the stalled ones and what becomes of the others. -/
theorem HarvestLeaves.splits {s : State} {n : Nat} {l left out : List Entry} (h : HarvestLeaves s n l left out) :
    ∃ stalled, (l.filter HasAnswer).Perm (out ++ stalled) ∧ out.length = min n (l.countP HasAnswer) ∧
      left.Perm (stalled ++ (l.filter fun e => !HasAnswer e).filterMap s.afterMismatch) := by
  induction h with
  | done => exact ⟨[], .refl _, by simp, .refl _⟩
  | @emit n e l left out ha _ ih =>
    obtain ⟨stalled, hanswered, hlen, hleft⟩ := ih
    have hp := lastToFront_perm l
    rw [hp.countP_eq] at hlen
    refine ⟨stalled, ?_, ?_, ?_⟩
    · rw [List.filter_cons_of_pos ha]
      exact ((hp.symm.filter _).trans hanswered).cons e
    · rw [List.countP_cons_of_pos ha, List.length_cons]; omega
    · rw [List.filter_cons_of_neg (by simp [ha])]
      exact hleft.trans (((hp.filter _).filterMap _).append_left _)
  | @stall e l left out ha _ ih =>
    obtain ⟨stalled, hanswered, hlen, hleft⟩ := ih
    refine ⟨e :: stalled, ?_, by simpa using hlen, ?_⟩
    · rw [List.filter_cons_of_pos ha]
      exact (hanswered.cons e).trans List.perm_middle.symm
    · rw [List.filter_cons_of_neg (by simp [ha])]
      exact hleft.cons e
  | @keep n e e' l left out ha hk _ ih =>
    obtain ⟨stalled, hanswered, hlen, hleft⟩ := ih
    refine ⟨stalled, ?_, ?_, ?_⟩
    · rwa [List.filter_cons_of_neg (by simp [ha])]
    · rwa [List.countP_cons_of_neg (by simp [ha])]
    · rw [List.filter_cons_of_pos (by simp [ha]), List.filterMap_cons_some hk]
      exact (hleft.cons e').trans List.perm_middle.symm
  | @drop n e l left out ha hd _ ih =>
    obtain ⟨stalled, hanswered, hlen, hleft⟩ := ih
    have hp := lastToFront_perm l
    refine ⟨stalled, ?_, ?_, ?_⟩
    · rw [List.filter_cons_of_neg (by simp [ha])]
      exact (hp.symm.filter _).trans hanswered
    · rwa [List.countP_cons_of_neg (by simp [ha]), ← hp.countP_eq]
    · rw [List.filter_cons_of_pos (by simp [ha]), List.filterMap_cons_none hd]
      exact hleft.trans (((hp.filter _).filterMap _).append_left _)

end Sys2Proof.Machine
end

section
/-! PROOFS. EXPIRE and HARVEST (R219 to R223, R283, R284): the order of the scans, and what becomes of each entry. -/

namespace Sys2Proof.Machine

/-- RESULT.N, as a shifted field (R39). -/
theorem resultCount_eq_shift (n : Nat) : resultCount n = BitVec.ofNat 32 (min n 255) <<< 24 := by
  have hbytes : resultCount n = count8 (min n 255) ++ 0x00#8 ++ 0x00#8 ++ 0x00#8 := by
    rw [resultCount, show (0#16 : BitVec 16) = 0x00#8 ++ 0x00#8 from rfl, BitVec.append_assoc']
    rfl
  rw [hbytes, append_bytes_eq_or, count8_setWidth, Nat.mod_eq_of_lt (by omega)]
  simp

/-- Settles O58: the order is that of the whole scan. -/
theorem expireScansInIndexOrder : Obligations.ExpireScansInIndexOrder := by
  intro s
  obtain ⟨left, hleaves, heq⟩ := s.expire_leaves
  refine ⟨_, rfl, ?_⟩
  rw [State.setResult_slots, heq]
  exact hleaves

/-- Settles O9: the scan leaves, up to order, what becomes of each entry. -/
theorem expireRetriesOrDropsEveryTimedOutEntry : Obligations.ExpireRetriesOrDropsEveryTimedOutEntry := by
  intro s
  obtain ⟨left, hleaves, heq⟩ := s.expire_leaves
  refine ⟨_, rfl, ?_⟩
  rw [heq]
  exact ⟨hleaves.perm, rfl, resultCount_eq_shift _, rfl⟩

/-- Settles O59: the order is that of the whole scan, with room for the rest of the depth. -/
theorem harvestScansInIndexOrder : Obligations.HarvestScansInIndexOrder := by
  intro s hcap
  obtain ⟨left, out, stalls, hleaves, -, heq⟩ := State.harvest_leaves (.inl (Nat.add_sub_cancel' hcap))
  refine ⟨_, out, rfl, ?_⟩
  rw [State.setResult_slots, State.setResult_respq, heq]
  exact ⟨hleaves, rfl⟩

/-- Settles O10: the scan splits the answered entries, and the stalls it counts are those of the split. -/
theorem harvestDeliversAnsweredEntries : Obligations.HarvestDeliversAnsweredEntries := by
  intro s hcap
  obtain ⟨left, out, stalls, hleaves, hsum, heq⟩ := State.harvest_leaves (.inl (Nat.add_sub_cancel' hcap))
  obtain ⟨stalled, hanswered, hlen, hleft⟩ := hleaves.splits
  have hstalls : stalls = stalled.length := by
    have := hanswered.length_eq
    rw [← List.countP_eq_length_filter, List.length_append] at this
    omega
  subst hstalls
  refine ⟨_, out, stalled, rfl, hanswered, hlen, ?_⟩
  rw [heq]
  exact ⟨rfl, hleft, rfl, resultCount_eq_shift _, rfl⟩

end Sys2Proof.Machine
end

section
/-! SUPPORT. What one step can do to the registry (R30, R211 to R223, R252): to each entry it keeps, and to the list. -/

namespace Sys2Proof.Machine

/-- What a step can do to an entry that stays in the registry: leave it, mark it sent (R252), store its response, of 8 to
`bytes` bytes (R218), or retry it below `maxResend` (R219). -/
inductive EntryMove (maxResend bytes : Nat) (e : Entry) : Entry → Prop where
  | stay : EntryMove maxResend bytes e e
  | send (now : Word) (h : e.respExp = true) : EntryMove maxResend bytes e { e with isSent := true, sentTime := now }
  | answer (d : List Byte) (hs : e.isSent = true) (hr : e.resp = []) (hlow : 8 ≤ d.length) (hhigh : d.length ≤ bytes) :
    EntryMove maxResend bytes e { e with resp := d }
  | retry (now : Word) (h : e.resend.toNat < maxResend) : EntryMove maxResend bytes e (e.retried now)

/-- `l'` holds entries of `l`, each at most once and moved at most once, in some order. -/
def Aged (maxResend bytes : Nat) (l l' : List Entry) : Prop :=
  ∃ kept, kept.Subperm l ∧ List.Forall₂ (EntryMove maxResend bytes) kept l'

/-- An entry ENQUEUE can add to the registry `l` (R211, R214, R216). -/
structure NewEntry (l : List Entry) (e : Entry) : Prop where
  idInRange : 0x80#8 ≤ e.id
  idFresh : ∀ x ∈ l, x.id ≠ e.id
  unsent : e.isSent = false
  resend : e.resend = 0#8
  resp : e.resp = []
  payloadLength : 1 ≤ e.payload.length ∧ e.payload.length ≤ 32

/-- What a step can do to the registry: move and remove entries, or put a new one in a slot or at the end (R214). -/
inductive RegistryMove (maxResend bytes : Nat) (l : List Entry) : List Entry → Prop where
  | age {l' : List Entry} (h : Aged maxResend bytes l l') : RegistryMove maxResend bytes l l'
  | replace (i : Nat) {e : Entry} (h : NewEntry l e) : RegistryMove maxResend bytes l (l.set i e)
  | append {e : Entry} (h : NewEntry l e) : RegistryMove maxResend bytes l (l ++ [e])

section
variable {maxResend bytes : Nat} {l l' : List Entry} {e e' : Entry}

theorem EntryMove.id_eq (h : EntryMove maxResend bytes e e') : e'.id = e.id := by cases h <;> rfl

theorem EntryMove.map_id_eq (h : List.Forall₂ (EntryMove maxResend bytes) l l') :
    l'.map Entry.id = l.map Entry.id := by
  induction h with
  | nil => rfl
  | cons hm _ ih => rw [List.map_cons, List.map_cons, hm.id_eq, ih]

/-! `Aged`. -/

theorem Aged.of_forall₂ (h : List.Forall₂ (EntryMove maxResend bytes) l l') : Aged maxResend bytes l l' :=
  ⟨l, .refl l, h⟩

theorem Aged.of_subperm (h : l'.Subperm l) : Aged maxResend bytes l l' :=
  ⟨l', h, List.forall₂_same.2 fun _ _ => .stay⟩

theorem Aged.refl (l : List Entry) : Aged maxResend bytes l l := .of_subperm (.refl l)

/-- Every entry after was an entry before, up to one move. -/
theorem Aged.exists_move (h : Aged maxResend bytes l l') (he : e' ∈ l') : ∃ e ∈ l, EntryMove maxResend bytes e e' := by
  obtain ⟨kept, hsub, hmoves⟩ := h
  obtain ⟨i, hi, rfl⟩ := List.getElem_of_mem he
  have hi' : i < kept.length := hmoves.length_eq ▸ hi
  exact ⟨kept[i], hsub.subset (List.getElem_mem hi'), hmoves.get hi' hi⟩

/-- No id is new, and none is there more often than before. -/
theorem Aged.ids_subperm (h : Aged maxResend bytes l l') : (l'.map Entry.id).Subperm (l.map Entry.id) := by
  obtain ⟨kept, hsub, hmoves⟩ := h
  obtain ⟨m, hperm, hsubl⟩ := hsub
  rw [EntryMove.map_id_eq hmoves]
  exact ⟨m.map Entry.id, hperm.map _, hsubl.map _⟩

/-- A moved entry in its own slot. -/
theorem Aged.set {i : Nat} (he : l[i]? = some e) (hm : EntryMove maxResend bytes e e') :
    Aged maxResend bytes l (l.set i e') := by
  refine .of_forall₂ (List.forall₂_iff_get.2 ⟨by simp, fun j hj hj' => ?_⟩)
  simp only [List.get_eq_getElem, List.getElem_set]
  split
  case isTrue hij =>
    subst hij
    rwa [(List.getElem?_eq_some_iff.1 he).2]
  case isFalse => exact .stay

theorem Aged.swapRemove {i : Nat} (h : i < l.length) : Aged maxResend bytes l (swapRemove l i) :=
  .of_subperm ((swapRemove_perm h).subperm.trans (List.eraseIdx_sublist l i).subperm)

/-- What becomes of the entries still to examine when the entry a scan is at moves. -/
theorem Aged.cons (hm : EntryMove maxResend bytes e e') (h : Aged maxResend bytes l l') :
    Aged maxResend bytes (e :: l) (e' :: l') := by
  obtain ⟨kept, hsub, hmoves⟩ := h
  exact ⟨e :: kept, (List.subperm_cons e).2 hsub, .cons hm hmoves⟩

/-- The same when the scan removes the entry. -/
theorem Aged.remove (h : Aged maxResend bytes (lastToFront l) l') : Aged maxResend bytes (e :: l) l' := by
  obtain ⟨kept, hsub, hmoves⟩ := h
  exact ⟨kept, (hsub.trans (lastToFront_perm l).subperm).trans (List.sublist_cons_self e l).subperm, hmoves⟩

end

/-! The scans (R219 to R221). -/

theorem State.afterExpiry_move {s : State} {e e' : Entry} (h : s.afterExpiry e = some e') (bytes : Nat) :
    EntryMove s.cfg.maxResend bytes e e' := by
  unfold State.afterExpiry at h
  split_ifs at h with ht hr <;> cases h
  · exact .retry s.nowMs (Nat.lt_of_not_le hr)
  · exact .stay

theorem State.afterMismatch_move {s : State} {e e' : Entry} (h : s.afterMismatch e = some e') (bytes : Nat) :
    EntryMove s.cfg.maxResend bytes e e' := by
  unfold State.afterMismatch at h
  split_ifs at h with ht hr <;> cases h
  · exact .stay
  · exact .retry s.nowMs (Nat.lt_of_not_le hr)

theorem ScanLeaves.aged {maxResend bytes : Nat} {f : Entry → Option Entry}
    (hf : ∀ {e e' : Entry}, f e = some e' → EntryMove maxResend bytes e e') {l left : List Entry}
    (h : ScanLeaves f l left) : Aged maxResend bytes l left := by
  induction h with
  | done => exact .refl []
  | keep h _ ih => exact ih.cons (hf h)
  | remove _ _ ih => exact ih.remove

theorem HarvestLeaves.aged {s : State} {n : Nat} {l left out : List Entry} (h : HarvestLeaves s n l left out)
    (bytes : Nat) : Aged s.cfg.maxResend bytes l left := by
  induction h with
  | done => exact .refl []
  | emit _ _ ih => exact ih.remove
  | stall _ _ ih => exact ih.cons .stay
  | keep _ hk _ ih => exact ih.cons (s.afterMismatch_move hk bytes)
  | drop _ _ _ ih => exact ih.remove

theorem State.expire_aged (s : State) (bytes : Nat) : Aged s.cfg.maxResend bytes s.slots s.expire.2.slots := by
  obtain ⟨left, hleaves, heq⟩ := s.expire_leaves
  rw [heq]
  exact hleaves.aged fun h => s.afterExpiry_move h bytes

/-- A harvest always has some room, be `respq` within its depth or not. -/
theorem State.exists_room (s : State) (q : List RespRec) (l : List Entry) : ∃ n, s.Room q l n := by
  rcases Nat.lt_or_ge s.cfg.respFifoDepth q.length with h | h
  · exact ⟨l.length, .inr ⟨h, le_rfl⟩⟩
  · exact ⟨_, .inl (Nat.add_sub_cancel' h)⟩

theorem State.harvest_aged (s : State) (bytes : Nat) : Aged s.cfg.maxResend bytes s.slots s.harvest.2.slots := by
  obtain ⟨n, hroom⟩ := s.exists_room s.respq s.slots
  obtain ⟨left, out, stalls, hleaves, -, heq⟩ := State.harvest_leaves hroom
  rw [heq]
  exact hleaves.aged bytes

/-! The arbiter and the responses (R218, R252). -/

/-- The entry a removal takes away does not matter. -/
theorem swapRemove_set_same (l : List Entry) (i : Nat) (e : Entry) : swapRemove (l.set i e) i = swapRemove l i := by
  rcases l.eq_nil_or_concat with rfl | ⟨m, x, rfl⟩
  · rfl
  · rw [List.concat_eq_append, swapRemove_concat]
    rcases Nat.lt_trichotomy i m.length with h | rfl | h
    · rw [List.set_append_left _ _ h, swapRemove_concat, List.length_set, List.set_set,
        if_pos h, if_pos h]
    · rw [List.set_append_right _ _ le_rfl, Nat.sub_self, List.set_cons_zero, swapRemove_concat,
        if_neg (Nat.lt_irrefl _), if_neg (Nat.lt_irrefl _)]
    · rw [List.set_eq_of_length_le (by simp; omega), swapRemove_concat]

theorem State.markSent_aged {s : State} {i : Nat} {e : Entry} (he : s.slots[i]? = some e) (maxResend bytes : Nat) :
    Aged maxResend bytes s.slots (s.markSent i e) := by
  unfold State.markSent
  split
  next hr => exact .set he (.send s.nowMs hr)
  next =>
    rw [swapRemove_set_same]
    exact .swapRemove (List.getElem?_eq_some_iff.1 he).1

theorem State.arbitrate_aged (s : State) (fnr : Byte) (maxResend bytes : Nat) :
    Aged maxResend bytes s.slots (s.arbitrate fnr).slots := by
  rcases s.arbitrate_cases fnr with ⟨-, h⟩ | ⟨i, e, -, he, h⟩ <;> rw [h]
  · exact .refl _
  · exact State.markSent_aged he maxResend bytes

theorem State.matchResponse_aged (s : State) {d : List Byte} {bytes : Nat} (maxResend : Nat) (hlow : 8 ≤ d.length)
    (hhigh : d.length ≤ bytes) : Aged maxResend bytes s.slots (s.matchResponse d).2.slots := by
  rcases s.matchResponse_cases d with ⟨i, hi, h⟩ | ⟨-, h⟩ <;> rw [h]
  · obtain ⟨hlt, htakes, -⟩ := List.findIdx?_eq_some_iff_getElem.1 hi
    obtain ⟨-, hsent, hresp⟩ := (takesResponse_iff d _).1 htakes
    have hget : s.slots[i]? = some s.slots[i] := List.getElem?_eq_getElem hlt
    simp only [List.modify_eq_set_getElem?, hget]
    exact .set hget (.answer d hsent hresp hlow hhigh)
  · exact .refl _

/-- A completed frame moves entries at most; its response is no longer than the frame. -/
theorem FrameEffect.aged {r : List Byte} {s t : State} (h : FrameEffect r s t) (hr : 1 ≤ r.length) (maxResend : Nat) :
    Aged maxResend r.length s.slots t.slots := by
  cases h with
  | record k => rw [State.finishFrame_slots]; exact .refl _
  | discard k c => rw [State.bump_slots, State.finishFrame_slots]; exact .refl _
  | sync fnr => simpa using State.arbitrate_aged ((s.finishFrame .sync r false).bump .sync) fnr maxResend r.length
  | response hd =>
    have hlen : (destuff r).length ≤ r.length := (destuff_length_le r).trans_eq (Nat.max_eq_left hr)
    rw [State.finishFrame_slots]
    exact s.matchResponse_aged maxResend hd hlen

/-! ENQUEUE (R211 to R216). -/

theorem State.newEntry_new {s : State} {id : Byte} (hlen : s.badLength = false) (hid : s.allocateId = some id) :
    NewEntry s.slots (s.newEntry id) := by
  obtain ⟨hrange, hfresh, -⟩ := State.allocateId_eq_some hid
  obtain ⟨hpayload, hlow, hhigh⟩ := State.stagedPayload_length hlen id
  exact ⟨hrange, hfresh, rfl, rfl, rfl, by rw [State.newEntry, hpayload]; exact ⟨hlow, hhigh⟩⟩

theorem State.enqueueCommand_registryMove (s : State) (c : Bool) (maxResend bytes : Nat) :
    RegistryMove maxResend bytes s.slots (s.enqueueCommand c).slots := by
  rcases s.enqueueCommand_cases c with ⟨-, h⟩ | ⟨-, -, h⟩ | ⟨id, hlen, hid, h⟩
  · rw [h]; exact .age (.refl _)
  · rw [h]; exact .age (.refl _)
  · have hnew := State.newEntry_new hlen hid
    rcases s.enqueueAs_cases c id with ⟨i, -, -, h'⟩ | ⟨-, -, h'⟩ | ⟨-, -, h'⟩ <;> rw [h, h']
    · exact .replace i hnew
    · exact .append hnew
    · exact .age (.refl _)

/-! Every agent's effect. -/

theorem CmdEffect.registryMove {s t : State} (h : CmdEffect s t) (bytes : Nat) :
    RegistryMove s.cfg.maxResend bytes s.slots t.slots := by
  cases h with
  | enqueue c => exact s.enqueueCommand_registryMove c _ _
  | expire w => exact .age (s.expire_aged bytes)
  | maintain => exact .age (s.expire_aged bytes)
  | harvest w => exact .age (s.harvest_aged bytes)
  | _ => exact .age (.refl _)

/-- What a step of an agent can do to the registry. A response it stores has arrived in the assembly buffer, with the
terminator after it (R175, R218). -/
theorem AgentEffect.registryMove {s t : State} {a : Agent} (h : AgentEffect s a t) :
    RegistryMove s.cfg.maxResend (s.rxbuf.length + 1) s.slots t.slots := by
  cases h with
  | frame q t _ _ _ ht =>
    have haged := ht.aged (by simp) s.cfg.maxResend
    rw [List.length_append, List.length_singleton] at haged
    exact .age haged
  | finish => exact .age (s.harvest_aged _)
  | command op q t _ _ ht => exact ht.registryMove _
  | read => rw [State.hostRead_frame]; exact .age (.refl _)
  | write => rw [State.hostWrite_frame]; exact .age (.refl _)
  | request p q =>
    have hstage : (State.stage { s with hostq := q } p).slots = s.slots := by rw [State.stage_frame]
    have hmove := (State.stage { s with hostq := q } p).enqueueCommand_registryMove p.coalesce s.cfg.maxResend
      (s.rxbuf.length + 1)
    rwa [hstage] at hmove
  | wireRx => rw [State.wireRxStep_frame]; exact .age (.refl _)
  | rst => exact .age (.of_subperm (List.nil_subperm))
  | _ => exact .age (.refl _)

theorem step_registryMove {s t : State} (h : step s = .next t) :
    RegistryMove s.cfg.maxResend (s.rxbuf.length + 1) s.slots t.slots := by
  obtain ⟨a, -, ha⟩ := step_agentEffect h
  exact ha.registryMove

end Sys2Proof.Machine
end

section
/-! PROOFS. What every step keeps in the registry (R225, R226, R230): the ids, the entries, and how an entry ages. -/

namespace Sys2Proof.Machine

/-! The ids (R33, R225). -/

/-- What `IdsInv` says of the registry. -/
structure DistinctIds (l : List Entry) : Prop where
  distinct : (l.map Entry.id).Nodup
  inRange : ∀ e ∈ l, 0x80#8 ≤ e.id

theorem IdsInv.slots {s : State} (h : IdsInv s) : DistinctIds s.slots := ⟨h.distinct, h.inRange⟩

section
variable {maxResend bytes : Nat} {l l' : List Entry} {e e' : Entry}

theorem DistinctIds.aged (h : DistinctIds l) (ha : Aged maxResend bytes l l') : DistinctIds l' where
  distinct :=
    have ⟨_, hperm, hsub⟩ := ha.ids_subperm
    hperm.nodup_iff.1 (hsub.nodup h.distinct)
  inRange := fun e' he' => by
    obtain ⟨e, he, hm⟩ := ha.exists_move he'
    rw [hm.id_eq]
    exact h.inRange e he

theorem DistinctIds.append (h : DistinctIds l) (hnew : NewEntry l e) : DistinctIds (l ++ [e]) where
  distinct := by
    rw [List.map_append, List.map_singleton, List.nodup_append_comm, List.singleton_append, List.nodup_cons]
    refine ⟨fun hmem => ?_, h.distinct⟩
    obtain ⟨x, hx, hid⟩ := List.mem_map.1 hmem
    exact hnew.idFresh x hx hid
  inRange := fun x hx => by
    rcases List.mem_append.1 hx with hx | hx
    · exact h.inRange x hx
    · rw [List.mem_singleton.1 hx]
      exact hnew.idInRange

theorem DistinctIds.replace (h : DistinctIds l) (i : Nat) (hnew : NewEntry l e) : DistinctIds (l.set i e) where
  distinct := by
    rw [List.map_set]
    refine h.distinct.set fun hmem => ?_
    obtain ⟨x, hx, hid⟩ := List.mem_map.1 hmem
    exact hnew.idFresh x hx hid
  inRange := fun x hx => by
    rcases List.mem_or_eq_of_mem_set hx with hx | rfl
    · exact h.inRange x hx
    · exact hnew.idInRange

theorem RegistryMove.keeps_distinctIds (hm : RegistryMove maxResend bytes l l') (h : DistinctIds l) :
    DistinctIds l' := by
  cases hm with
  | age ha => exact h.aged ha
  | replace i hnew => exact h.replace i hnew
  | append hnew => exact h.append hnew

end

/-! `id_ctr` (R33, R213). -/

theorem State.enqueueCommand_ctrInRange {s : State} (h : 0x80#8 ≤ s.idCtr) (c : Bool) :
    0x80#8 ≤ (s.enqueueCommand c).idCtr := by
  rcases s.enqueueCommand_cases c with ⟨-, heq⟩ | ⟨-, -, heq⟩ | ⟨id, -, -, heq⟩
  · rw [heq]; exact h
  · rw [heq]; exact h
  · rcases s.enqueueAs_cases c id with ⟨i, -, -, heq'⟩ | ⟨-, -, heq'⟩ | ⟨-, -, heq'⟩ <;> rw [heq, heq'] <;>
      exact idAfter_ge id

theorem CmdEffect.ctrInRange {s t : State} (ht : CmdEffect s t) (h : 0x80#8 ≤ s.idCtr) : 0x80#8 ≤ t.idCtr := by
  cases ht with
  | enqueue c => exact State.enqueueCommand_ctrInRange h c
  | expire w => rw [State.setResult_idCtr, s.expire_frame]; exact h
  | maintain => rw [s.expire_frame]; exact h
  | harvest w => rw [State.setResult_idCtr, s.harvest_frame]; exact h
  | _ => exact h

theorem AgentEffect.ctrInRange {s t : State} {a : Agent} (ha : AgentEffect s a t) (h : 0x80#8 ≤ s.idCtr) :
    0x80#8 ≤ t.idCtr := by
  cases ha with
  | frame q t _ _ _ ht => rw [ht.frame]; exact h
  | finish => rw [s.maintainFinish_frame]; exact h
  | command op q t _ _ ht => exact ht.ctrInRange h
  | read => rw [State.hostRead_frame]; exact h
  | write => rw [State.hostWrite_frame]; exact h
  | request p q =>
    have hstage : (State.stage { s with hostq := q } p).idCtr = s.idCtr := by rw [State.stage_frame]
    exact State.enqueueCommand_ctrInRange (by rwa [hstage]) p.coalesce
  | wireRx => rw [State.wireRxStep_frame]; exact h
  | rst => exact BitVec.le_refl _
  | _ => exact h

theorem IdsInv.of_empty {s : State} (hslots : s.slots = []) (hctr : 0x80#8 ≤ s.idCtr) : IdsInv s :=
  ⟨by simp [hslots], by simp [hslots], hctr⟩

/-- Settles O52: a step adds no id but a fresh one. -/
theorem stepKeepsIdsUnique : Obligations.StepKeepsIdsUnique := by
  refine ⟨fun c now => .of_empty rfl (BitVec.le_refl _), fun s t hs hstep => ?_⟩
  have hids := (step_registryMove hstep).keeps_distinctIds hs.slots
  obtain ⟨a, -, ha⟩ := step_agentEffect hstep
  exact ⟨hids.distinct, hids.inRange, ha.ctrInRange hs.ctrInRange⟩

/-! The entries (R230). -/

theorem EntryMove.keeps_entryInv {c : Config} {bytes : Nat} {e e' : Entry} (hm : EntryMove c.maxResend bytes e e')
    (hbytes : bytes ≤ c.maxBufferSize) (h : EntryInv c e) : EntryInv c e' := by
  cases hm with
  | stay => exact h
  | send now hr => exact { h with answeredIsSent := fun _ => rfl, noReplyUnsent := fun hn => by simp [hr] at hn }
  | answer d hs _ hlow hhigh =>
    exact { h with answeredIsSent := fun _ => hs, respLength := .inr ⟨hlow, hhigh.trans hbytes⟩ }
  | retry now hr =>
    have hbound : (e.resend + 1#8).toNat ≤ c.maxResend := by rw [BitVec.toNat_add, BitVec.toNat_ofNat]; omega
    exact ⟨fun hn => absurd rfl hn, .inl rfl, fun _ => rfl, hbound, h.payloadLength⟩

theorem NewEntry.entryInv {l : List Entry} {e : Entry} (h : NewEntry l e) (c : Config) : EntryInv c e where
  answeredIsSent := fun hn => absurd h.resp hn
  respLength := .inl h.resp
  noReplyUnsent := fun _ => h.unsent
  resendBound := by rw [h.resend]; exact Nat.zero_le _
  payloadLength := h.payloadLength

theorem RegistryMove.keeps_entries {c : Config} {bytes : Nat} {l l' : List Entry}
    (hm : RegistryMove c.maxResend bytes l l') (hbytes : bytes ≤ c.maxBufferSize) (h : ∀ e ∈ l, EntryInv c e) :
    ∀ e ∈ l', EntryInv c e := by
  cases hm with
  | age ha =>
    intro e' he'
    obtain ⟨e, he, hmove⟩ := ha.exists_move he'
    exact hmove.keeps_entryInv hbytes (h e he)
  | replace i hnew =>
    intro e he
    rcases List.mem_or_eq_of_mem_set he with he | rfl
    · exact h e he
    · exact hnew.entryInv c
  | append hnew =>
    intro e he
    rcases List.mem_append.1 he with he | he
    · exact h e he
    · rw [List.mem_singleton.1 he]
      exact hnew.entryInv c

/-! The assembly buffer (R173 to R175). -/

/-- A step leaves the assembly buffer, empties it, or adds a byte that neither ends the frame nor fills it. -/
theorem AgentEffect.rxbuf {s t : State} {a : Agent} (h : AgentEffect s a t) :
    t.rxbuf = s.rxbuf ∨ t.rxbuf = [] ∨
      ∃ b, b ≠ endOfFrame ∧ s.rxbuf.length + 1 ≠ s.cfg.maxBufferSize ∧ t.rxbuf = s.rxbuf ++ [b] := by
  cases h with
  | byte b q _ _ _ hb hl => exact .inr (.inr ⟨b, hb, hl, rfl⟩)
  | overflow => exact .inr (.inl rfl)
  | frame q t _ _ _ ht => rw [ht.frame]; exact .inr (.inl rfl)
  | finish => rw [s.maintainFinish_frame]; exact .inl rfl
  | command op q t _ _ ht => rw [ht.frame]; exact .inl rfl
  | read => rw [State.hostRead_frame]; exact .inl rfl
  | write => rw [State.hostWrite_frame]; exact .inl rfl
  | request => rw [State.runRequest_frame]; exact .inl rfl
  | wireRx => rw [State.wireRxStep_frame]; exact .inl rfl
  | rst => exact .inr (.inl rfl)
  | _ => exact .inl rfl

theorem AgentEffect.cfg_eq {s t : State} {a : Agent} (h : AgentEffect s a t) : t.cfg = s.cfg := by
  rcases h.outside with ho | ⟨-, ho⟩ <;> exact (Prod.mk.inj ho).1

theorem RegistryInv.agent {s t : State} {a : Agent} (h : RegistryInv s) (ha : AgentEffect s a t) : RegistryInv t := by
  have hentries := ha.registryMove.keeps_entries h.rxbufShort h.entries
  have hpos : 0 < s.cfg.maxBufferSize := Nat.zero_lt_of_lt h.rxbufShort
  rw [← ha.cfg_eq] at hentries
  refine ⟨ha.cfg_eq ▸ h.cfgValid, hentries, ?_, ?_⟩
  · rw [ha.cfg_eq]
    rcases ha.rxbuf with hbuf | hbuf | ⟨b, -, hl, hbuf⟩ <;> rw [hbuf]
    · exact h.rxbufShort
    · exact hpos
    · rw [List.length_append, List.length_singleton]
      exact Nat.lt_of_le_of_ne h.rxbufShort hl
  · rcases ha.rxbuf with hbuf | hbuf | ⟨b, hb, -, hbuf⟩ <;> rw [hbuf]
    · exact h.rxbufOpen
    · exact List.not_mem_nil
    · rw [List.mem_append, List.mem_singleton]
      exact not_or.2 ⟨h.rxbufOpen, hb.symm⟩

/-- Settles O53: the moves of the registry keep the entries' invariants, and the buffer stays below its limit. -/
theorem stepKeepsRegistryEntries : Obligations.StepKeepsRegistryEntries :=
  fun _ _ hs h => step_keeps (fun _ _ h => { h with }) RegistryInv.agent hs h

/-! How an entry ages (R226). -/

/-- Distinct ids name their entries. -/
theorem DistinctIds.eq_of_id_eq {l : List Entry} (h : DistinctIds l) {e e' : Entry} (he : e ∈ l) (he' : e' ∈ l)
    (hid : e.id = e'.id) : e = e' :=
  List.inj_on_of_nodup_map h.distinct he he' hid

/-- An entry that keeps its id made one move: a new entry has an id that none had. -/
theorem RegistryMove.entryMove {maxResend bytes : Nat} {l l' : List Entry} (hm : RegistryMove maxResend bytes l l')
    (h : DistinctIds l) {e e' : Entry} (he : e ∈ l) (he' : e' ∈ l') (hid : e.id = e'.id) :
    EntryMove maxResend bytes e e' := by
  have hstay : e' ∈ l → EntryMove maxResend bytes e e' := fun hl => h.eq_of_id_eq he hl hid ▸ .stay
  cases hm with
  | age ha =>
    obtain ⟨x, hx, hmove⟩ := ha.exists_move he'
    rwa [h.eq_of_id_eq he hx (hid.trans hmove.id_eq)]
  | replace i hnew =>
    rcases List.mem_or_eq_of_mem_set he' with hl | rfl
    · exact hstay hl
    · exact absurd hid (hnew.idFresh e he)
  | append hnew =>
    rcases List.mem_append.1 he' with hl | hl
    · exact hstay hl
    · rw [List.mem_singleton.1 hl] at hid
      exact absurd hid (hnew.idFresh e he)

section
variable {maxResend bytes : Nat} {e e' : Entry}

theorem EntryMove.keeps_request (h : EntryMove maxResend bytes e e') :
    e'.command = e.command ∧ e'.address = e.address ∧ e'.expCode = e.expCode ∧ e'.respExp = e.respExp ∧
      e'.payload = e.payload := by
  cases h <;> exact ⟨rfl, rfl, rfl, rfl, rfl⟩

theorem EntryMove.resend_eq_or_succ (h : EntryMove maxResend bytes e e') :
    e'.resend = e.resend ∨ (e'.resend = e.resend + 1#8 ∧ e'.isSent = false ∧ e'.resp = []) := by
  cases h with
  | retry => exact .inr ⟨rfl, rfl, rfl⟩
  | _ => exact .inl rfl

/-- Below 255 a retry counts one up without wrapping. -/
theorem EntryMove.resend_toNat (h : EntryMove maxResend bytes e e') (hmax : maxResend ≤ 255) :
    e'.resend.toNat = e.resend.toNat ∨ e'.resend.toNat = e.resend.toNat + 1 := by
  cases h with
  | retry now hr =>
    refine .inr ?_
    rw [Entry.retried, BitVec.toNat_add, BitVec.toNat_ofNat]
    omega
  | _ => exact .inl rfl

theorem EntryMove.resp_eq_or_nil (h : EntryMove maxResend bytes e e') (hne : e.resp ≠ []) :
    e'.resp = e.resp ∨ e'.resp = [] := by
  cases h with
  | answer d hs hr => exact absurd hr hne
  | retry => exact .inr rfl
  | _ => exact .inl rfl

end

/-- Settles O49: an entry that keeps its id makes one move. -/
theorem entriesAgeMonotonically : Obligations.EntriesAgeMonotonically := by
  intro s t e e' hids hstep he he' hid
  have hm := (step_registryMove hstep).entryMove hids.slots he he' hid
  refine ⟨hm.keeps_request, hm.resend_eq_or_succ, fun hreg => ?_, hm.resp_eq_or_nil⟩
  obtain ⟨-, -, -, -, hmax, -⟩ := hreg.cfgValid
  exact ⟨hm.resend_toNat hmax, (hm.keeps_entryInv hreg.rxbufShort (hreg.entries e he)).resendBound⟩

end Sys2Proof.Machine
end

section
/-! PROOFS. ENQUEUE (R212 to R217, R227, R282, R324): its answers, in the order of its checks. -/

namespace Sys2Proof.Machine

/-! The length (R214). -/

theorem legalLength_iff (s : State) : LegalLength s ↔ s.badLength = false := by
  rw [LegalLength, State.badLength, show payloadMax = 32 from rfl]
  cases s.descIdInPayload <;> simp <;> omega

theorem LegalLength.badLength {s : State} (h : LegalLength s) : s.badLength = false := (legalLength_iff s).1 h

/-- Settles O3: the length is checked first. -/
theorem enqueueRefusesBadLength : Obligations.EnqueueRefusesBadLength := by
  intro s c h
  have hbad : s.badLength = true := by rwa [legalLength_iff, Bool.not_eq_false] at h
  rw [exec_enqueueInstr, State.enqueueCommand, if_pos hbad]
  rfl

/-! The id (R211 to R213, R227). -/

theorem State.enqueueCommand_of_id {s : State} {id : Byte} (hlen : s.badLength = false)
    (hid : s.allocateId = some id) (c : Bool) : s.enqueueCommand c = s.enqueueAs c id := by
  simp [State.enqueueCommand, hlen, hid]

/-- Settles O4: no candidate is left. -/
theorem enqueueReportsIdExhausted : Obligations.EnqueueReportsIdExhausted := by
  intro s c hlen hused
  have hnone : s.allocateId = none := s.allocateId_eq_none.2 hused
  rw [exec_enqueueInstr, State.enqueueCommand, hlen.badLength, hnone]
  rfl

/-- The id `allocate_id` gives out is the fresh one (R212). -/
theorem FreshId.of_allocateId {s : State} {id : Byte} (h : s.allocateId = some id) : FreshId s id := by
  obtain ⟨-, hfree, -⟩ := State.allocateId_eq_some h
  rw [State.allocateId, List.find?_map, Option.map_eq_some_iff] at h
  obtain ⟨k, hk, rfl⟩ := h
  obtain ⟨-, hlt, hbefore⟩ := List.find?_range_eq_some.1 hk
  refine ⟨k, List.mem_range.1 hlt, rfl, hfree, fun j hj => ?_⟩
  have hin : s.inUse (idCandidate s.idCtr j) = true := by simpa using hbefore j hj
  exact (s.inUse_eq_true _).1 hin

/-- The candidates run through 0x80 to 0xFF, from the counter on (R212). -/
theorem idCandidate_toNat (ctr : Byte) (k : Nat) : (idCandidate ctr k).toNat = 128 + (ctr.toNat + k) % 128 := by
  have key : ∀ x : Byte, (0x80#8 ||| (x &&& 0x7F#8)).toNat = 128 + x.toNat % 128 := by decide
  rw [idCandidate, key, BitVec.toNat_add, BitVec.toNat_ofNat]
  omega

/-- The 127 candidates are all different. -/
theorem idCandidates_nodup (ctr : Byte) : ((List.range 127).map (idCandidate ctr)).Nodup := by
  refine List.Nodup.map_on (fun j hj k hk h => ?_) List.nodup_range
  have hnat := congrArg BitVec.toNat h
  rw [idCandidate_toNat, idCandidate_toNat] at hnat
  rw [List.mem_range] at hj hk
  omega

/-- Fewer than 127 entries cannot hold 127 candidates (R227). -/
theorem State.exists_allocateId {s : State} (h : s.slots.length ≤ 126) : ∃ id, s.allocateId = some id := by
  refine Option.ne_none_iff_exists'.1 fun hnone => ?_
  have hheld : (List.range 127).map (idCandidate s.idCtr) ⊆ s.slots.map Entry.id := by
    intro id hid
    obtain ⟨k, hk, rfl⟩ := List.mem_map.1 hid
    exact List.mem_map.2 (s.allocateId_eq_none.1 hnone k (List.mem_range.1 hk))
  have hle := ((idCandidates_nodup s.idCtr).subperm hheld).length_le
  rw [List.length_map, List.length_map, List.length_range] at hle
  omega

/-- RESULT of an ENQUEUE that coalesced, as shifted fields (R282). -/
theorem resultEnqueued_coalesced (id : Byte) :
    resultEnqueued id true = 0x00010000#32 ||| (id.setWidth 32 <<< 8) := by
  have hbytes : resultEnqueued id true = 0x00#8 ++ 0x01#8 ++ id ++ 0x00#8 := by
    rw [resultEnqueued]
    rfl
  rw [hbytes, append_bytes_eq_or]
  simp

theorem resultEnqueued_ne_exhausted (id : Byte) (c : Bool) : resultEnqueued id c ≠ 0x00000002#32 := by
  revert id c
  decide

/-- An ENQUEUE that has an id does not answer ID_EXHAUSTED. -/
theorem State.enqueueAs_result (s : State) (c : Bool) (id : Byte) : (s.enqueueAs c id).result ≠ 0x00000002#32 := by
  rcases s.enqueueAs_cases c id with ⟨i, -, -, h⟩ | ⟨-, -, h⟩ | ⟨-, -, h⟩ <;> rw [h]
  · exact resultEnqueued_ne_exhausted id true
  · exact resultEnqueued_ne_exhausted id false
  · exact (by decide : resultOf .fifoFull ≠ 0x00000002#32)

/-- Settles O8, by counting the candidates. -/
theorem allocationSucceedsBelow127Entries : Obligations.AllocationSucceedsBelow127Entries := by
  intro s c h
  obtain ⟨id, hid⟩ := State.exists_allocateId h
  refine ⟨⟨id, .of_allocateId hid⟩, _, exec_enqueueInstr c s, ?_⟩
  rcases s.enqueueCommand_cases c with ⟨-, heq⟩ | ⟨-, hnone, -⟩ | ⟨id', -, -, heq⟩
  · rw [heq]; exact (by decide : resultOf .badLength ≠ 0x00000002#32)
  · simp [hid] at hnone
  · rw [heq]; exact s.enqueueAs_result c id'

/-! The entry (R214 to R217). -/

theorem State.stagedPayload_getElem? (s : State) (id : Byte) {i : Nat} (hi : i < s.descLen) (h32 : s.descLen ≤ 32) :
    (s.stagedPayload id)[i]? = some (if s.descIdInPayload = true ∧ i = 1 then id else s.stagedByte i) := by
  have hbyte : (s.stagedBytes.take s.descLen)[i]? = some (s.stagedByte i) := by
    rw [List.getElem?_take_of_lt hi, s.stagedBytes_getElem? (Nat.lt_of_lt_of_le hi h32)]
  unfold State.stagedPayload
  by_cases hid : s.descIdInPayload = true
  · rw [if_pos hid, List.getElem?_set]
    by_cases h1 : i = 1
    · subst h1
      simp [hid, hi]
    · simp [h1, hbyte, Ne.symm h1]
  · simp [hid, hbyte]

/-- With a legal length the new entry is the staged one. -/
theorem LegalLength.newEntry_staged {s : State} (h : LegalLength s) (id : Byte) :
    StagedEntry s id (s.newEntry id) := by
  obtain ⟨hcopied, -, hhigh⟩ := State.stagedPayload_length h.badLength id
  exact ⟨rfl, rfl, rfl, rfl, rfl, hcopied, fun i hi => s.stagedPayload_getElem? id hi hhigh, rfl, rfl, rfl, rfl⟩

theorem sameKey_iff (s : State) (e : Entry) :
    (e.command == s.descCommand && e.address == s.descAddress) = true ↔ SameKey s e := by
  simp [SameKey]

theorem State.coalesceTarget_eq_none {s : State} (h : ∀ e ∈ s.slots, ¬ SameKey s e) : s.coalesceTarget = none := by
  refine List.findIdx?_eq_none_iff.2 fun e he => ?_
  rw [← Bool.not_eq_true, sameKey_iff]
  exact h e he

/-- Settles O5: there is an id and room, and no coalesce target. -/
theorem enqueueAppendsTheStagedEntry : Obligations.EnqueueAppendsTheStagedEntry := by
  intro s c id hlen hid hroom hkey
  refine ⟨s.newEntry id, hlen.newEntry_staged id, ?_⟩
  rw [exec_enqueueInstr, State.enqueueCommand_appends hlen.badLength hid.allocateId hroom
    fun hc => State.coalesceTarget_eq_none (hkey hc)]
  rfl

/-- Settles O6: the search for a coalesce target finds the least slot with the key. -/
theorem enqueueCoalescesInPlace : Obligations.EnqueueCoalescesInPlace := by
  intro s id i old hlen hid hleast
  have htarget : s.coalesceTarget = some i := hleast.findIdx? (sameKey_iff s)
  refine ⟨s.newEntry id, hlen.newEntry_staged id, ?_⟩
  rw [← resultEnqueued_coalesced, show exec .enqueueC s = .next (s.enqueueCommand true) from rfl,
    State.enqueueCommand_of_id hlen.badLength hid.allocateId, State.enqueueAs, if_pos rfl, htarget]
  rfl

/-- Settles O7: there is an id, but neither room nor a coalesce target. -/
theorem enqueueReportsFifoFull : Obligations.EnqueueReportsFifoFull := by
  intro s c id hlen hid hfull hkey
  have hnone : c = true → s.coalesceTarget = none := fun hc => State.coalesceTarget_eq_none (hkey hc)
  rw [exec_enqueueInstr, State.enqueueCommand_of_id hlen.badLength hid.allocateId]
  rcases s.enqueueAs_cases c id with ⟨i, hc, htarget, -⟩ | ⟨-, hroom, -⟩ | ⟨-, -, h⟩
  · simp [hnone hc] at htarget
  · omega
  · rw [h]
    rfl

end Sys2Proof.Machine
end

section
/-! PROOFS. A frame under way (R252, R254, R255, R259): the bytes sent, queued and still to send. -/

namespace Sys2Proof.Machine

/-- What the bus has carried and will carry of the frame under way, as a property of the transmit side (R255). -/
def TxSide.outbound (l : TxSide) : List Byte := l.txlog ++ l.txq ++ l.txbuf.drop l.txIdx

theorem State.outbound_eq (s : State) : s.outbound = s.txSide.outbound := rfl

/-- While a frame is being sent a byte only moves on, from `txbuf` to `txq` and from `txq` to the bus. -/
theorem TxMove.keeps_outbound {l l' : TxSide} {a : Agent} (h : TxMove l a l') (he : l.eng = .tx ∨ l.eng = .flush)
    (ha : a ≠ .rst) : l'.outbound = l.outbound := by
  cases h with
  | same => rfl
  | pause => rfl
  | unpause => rfl
  | resume => rfl
  | release f hrx => simp [hrx] at he
  | push b _ hb =>
    obtain ⟨hidx, rfl⟩ := List.getElem?_eq_some_iff.1 hb
    simp only [TxSide.outbound, List.drop_eq_getElem_cons hidx, List.append_assoc, List.singleton_append]
  | flush => rfl
  | bus b q hq => simp only [TxSide.outbound, hq, List.append_assoc, List.singleton_append]
  | reset => exact absurd rfl ha

/-- Settles O45, by cases on the moves of the transmit side. -/
theorem transmissionIsNeverAltered : Obligations.TransmissionIsNeverAltered := by
  intro s t hsending hrst h
  obtain ⟨a, ha, hm⟩ := step_txMove h
  rw [t.outbound_eq, s.outbound_eq]
  exact hm.keeps_outbound hsending fun harst => hrst (harst ▸ ha).rst_scheduled

end Sys2Proof.Machine
end

section
/-! PROOFS. SYNC and the arbiter (R190, R250 to R253, R262). -/

namespace Sys2Proof.Machine

/-- A SYNC is recorded and counted before the arbiter runs (R190). -/
theorem State.finishFrame_sync (s : State) {enforce : Bool} {r : List Byte}
    (hwf : (Instr.rxSync r).wf enforce = true) :
    OnlyRecords s { bytes := r, kind := .sync, chkOk := validate r, matched := false }
      (frameCounters s ++ checksumCounters r ++ [.sync]) ((s.finishFrame .sync r false).bump .sync) := by
  obtain ⟨-, hsync, -, -⟩ := (wf_rxSync_iff ..).1 hwf
  exact (s.finishFrame_judged .sync false (headOk_of_syncType hsync)).bump .sync

/-- SYNC is the common processing, its count, and the arbiter with the frame's number (R190). -/
theorem exec_rxSync (s : State) (r : List Byte) : exec (.rxSync r) s =
    .next (((s.finishFrame .sync r false).bump .sync).arbitrate ((destuff r).getD 3 0#8)) := rfl

/-- Without an unsent entry the arbiter does nothing (R262). -/
theorem State.arbitrate_of_all_sent {s : State} (h : ∀ e ∈ s.slots, e.isSent = true) (fnr : Byte) :
    s.arbitrate fnr = s := by
  have hnone : s.firstUnsent = none := List.findIdx?_eq_none_iff.2 fun e he => by simp [h e he]
  rw [State.arbitrate, hnone]

/-- The arbiter takes the unsent entry of the least slot (R250). -/
theorem State.arbitrate_of_leastIndex {s : State} {i : Nat} {e : Entry}
    (h : LeastIndex s.slots (fun e => e.isSent = false) i e) (fnr : Byte) :
    s.arbitrate fnr = s.selectAndMark i e fnr := by
  have hfirst : s.firstUnsent = some i := h.findIdx? fun e => by simp
  obtain ⟨hget, -, -⟩ := h
  simp only [State.arbitrate, hfirst, hget]

/-- Settles O17: the arbiter finds no entry, and the common processing records the frame. -/
theorem syncWithoutUnsentEntrySendsNothing : Obligations.SyncWithoutUnsentEntrySendsNothing := by
  intro s enforce r hwf hsent
  refine ⟨_, ?_, s.finishFrame_sync hwf⟩
  rw [exec_rxSync, State.arbitrate_of_all_sent (by simpa using hsent)]

/-- The number of the frame sent after a sync: one more, modulo 128 (R251). -/
theorem nextFrameNumber_eq (fnr : Byte) :
    (fnr + 1#8) &&& 0x7F#8 = BitVec.ofNat 8 ((fnr.toNat + 1) % 128) := by
  revert fnr
  decide

/-- `remove` takes the entry at `i` away and puts the last one in its place (R222). -/
theorem swapRemove_swapRemoved {l : List Entry} {i : Nat} (h : i < l.length) : SwapRemoved l i (swapRemove l i) := by
  obtain ⟨m, x, rfl⟩ : ∃ m x, l = m ++ [x] :=
    l.eq_nil_or_concat'.resolve_left fun hnil => by simp [hnil] at h
  have hlen : (swapRemove (m ++ [x]) i).length = m.length := by simp [swapRemove_length]
  refine ⟨by rw [hlen, List.length_append, List.length_singleton], fun j hj => ?_⟩
  rw [hlen] at hj
  rw [swapRemove_concat, List.getLast?_concat, List.getElem?_append_left hj]
  by_cases hij : j = i
  · subst hij
    simp [hj]
  · rw [if_neg hij]
    split
    · exact List.getElem?_set_ne (Ne.symm hij)
    · rfl

theorem State.markSent_of_respExp {e : Entry} (h : e.respExp = true) (s : State) (i : Nat) :
    s.markSent i e = s.slots.set i { e with isSent := true, sentTime := s.nowMs } := if_pos h

theorem State.markSent_of_no_respExp {e : Entry} (h : e.respExp = false) (s : State) (i : Nat) :
    s.markSent i e = swapRemove s.slots i := by
  simp only [State.markSent, h, Bool.false_eq_true, if_false, swapRemove_set_same]

/-- Settles O18: the common processing records the frame, and the arbiter releases the entry. -/
theorem syncReleasesTheFirstUnsentEntry : Obligations.SyncReleasesTheFirstUnsentEntry := by
  intro s enforce r i e fnr hwf hfnr hleast
  have hi : i < s.slots.length := (List.getElem?_eq_some_iff.1 hleast.1).1
  have hnumber : (destuff r).getD 3 0#8 = fnr := by rw [List.getD_eq_getElem?_getD, hfnr, Option.getD_some]
  obtain ⟨hrec, hgain, hframe⟩ := s.finishFrame_sync hwf
  have hslots : ((s.finishFrame .sync r false).bump .sync).slots = s.slots := by simp
  rw [← hslots] at hleast
  rw [exec_rxSync, hnumber, State.arbitrate_of_leastIndex hleast]
  generalize (s.finishFrame .sync r false).bump .sync = u at *
  have hnow : u.nowMs = s.nowMs := by rw [hframe]
  refine ⟨_, rfl, hrec, ?gain, fun hexp => ?marked, fun hexp => ?removed, ?frame⟩
  case gain =>
    have hsent := hgain.trans (u.bump_gain .tx)
    rw [List.append_assoc] at hsent
    exact hsent
  case marked => rw [State.selectAndMark_slots, State.markSent_of_respExp hexp, hslots, hnow]
  case removed =>
    rw [State.selectAndMark_slots, State.markSent_of_no_respExp hexp, hslots]
    exact swapRemove_swapRemoved hi
  case frame =>
    rw [← nextFrameNumber_eq, State.selectAndMark, State.bump, hframe]

end Sys2Proof.Machine
end

section
/-! PROOFS. While a frame is being sent nothing is received and no other transmission starts (R171, R254, R256,
R260). -/

namespace Sys2Proof.Machine

/-- CNT_TX and CNT_SYNC: the transmissions started, and the syncs that can start one (R190, R250). -/
def Counters.traffic (c : Counters) : Word × Word := (c.tx, c.sync)

/-- The received bytes not yet consumed: `rxq` and the assembly buffer (R23, R24). -/
def State.rxSide (s : State) : List Byte × List Byte := (s.rxq, s.rxbuf)

theorem State.expire_traffic (s : State) : s.expire.2.counters.traffic = s.counters.traffic := by
  obtain ⟨left, -, heq⟩ := s.expire_leaves
  rw [heq]
  rfl

theorem State.harvest_traffic (s : State) : s.harvest.2.counters.traffic = s.counters.traffic := by
  obtain ⟨n, hroom⟩ := s.exists_room s.respq s.slots
  obtain ⟨left, out, stalls, -, -, heq⟩ := State.harvest_leaves hroom
  rw [heq]
  rfl

/-- No command starts a transmission; CLR_COUNTERS zeroes every counter (R288). -/
theorem CmdEffect.traffic {s t : State} (h : CmdEffect s t) :
    t.counters.traffic = s.counters.traffic ∨ t.counters = Counters.zero := by
  cases h with
  | clear => exact .inr rfl
  | enqueue c => rw [s.enqueueCommand_frame c]; exact .inl rfl
  | expire w => exact .inl s.expire_traffic
  | maintain => exact .inl s.expire_traffic
  | harvest w => exact .inl s.harvest_traffic
  | _ => exact .inl rfl

theorem State.sending.ne_rx {s : State} (h : s.sending) : s.eng ≠ .rx := by
  rcases h with h | h <;> simp [h]

section
variable {s t : State} {a : Agent}

/-- The ENGINE takes no frame outside RX, so no step of another state counts a sync or a transmission. -/
theorem AgentEffect.traffic_of_sending (h : AgentEffect s a t) (hs : s.sending) (hd : s.dir = true) :
    t.counters.traffic = s.counters.traffic ∨ t.counters = Counters.zero := by
  cases h with
  | overflow b q he => exact absurd he hs.ne_rx
  | frame q t he => exact absurd he hs.ne_rx
  | finish => exact .inl s.harvest_traffic
  | command op q t _ _ ht => exact ht.traffic
  | read => rw [State.hostRead_frame]; exact .inl rfl
  | write => rw [State.hostWrite_frame]; exact .inl rfl
  | request => rw [State.runRequest_frame]; exact .inl rfl
  | wireRx b q => rw [State.wireRxStep_of_dir (s := { s with busq := q }) hd]; exact .inl rfl
  | rst => exact .inr rfl
  | _ => exact .inl rfl

/-- With DIR 1 WIRE_RX queues nothing (R171), and outside RX the ENGINE takes nothing (R172). -/
theorem AgentEffect.rxSide_of_sending (h : AgentEffect s a t) (hs : s.sending) (hd : s.dir = true) (ha : a ≠ .rst) :
    t.rxSide = s.rxSide := by
  cases h with
  | byte b q he => exact absurd he hs.ne_rx
  | overflow b q he => exact absurd he hs.ne_rx
  | frame q t he => exact absurd he hs.ne_rx
  | finish => rw [s.maintainFinish_frame]; rfl
  | command op q t _ _ ht => rw [ht.frame]; rfl
  | read => rw [State.hostRead_frame]; rfl
  | write => rw [State.hostWrite_frame]; rfl
  | request => rw [State.runRequest_frame]; rfl
  | wireRx b q => rw [State.wireRxStep_of_dir (s := { s with busq := q }) hd]; rfl
  | rst => exact absurd rfl ha
  | _ => rfl

end

/-- Settles O46, by cases on the agents' effects. -/
theorem nothingIsReceivedWhileSending : Obligations.NothingIsReceivedWhileSending := by
  intro s t hs hd h
  obtain ⟨a, hnext, ha⟩ := step_agentEffect h
  have htraffic := ha.traffic_of_sending hs hd
  refine ⟨htraffic.imp_left fun heq => (Prod.mk.inj heq).1, htraffic.imp_left fun heq => (Prod.mk.inj heq).2,
    fun hrst => ?_⟩
  exact Prod.mk.inj (ha.rxSide_of_sending hs hd fun harst => hrst (harst ▸ hnext).rst_scheduled)

end Sys2Proof.Machine
end

section
/-! PROOFS. Only the arbiter marks an entry sent (R43, R71, R250 to R253). -/

namespace Sys2Proof.Machine

/-- Every sent entry of `l'` was a sent entry of `l`, by its id. -/
def NoneMarkedSent (l l' : List Entry) : Prop :=
  ∀ e' ∈ l', e'.isSent = true → ∃ e ∈ l, e.id = e'.id ∧ e.isSent = true

section
variable {l m n : List Entry}

theorem NoneMarkedSent.of_subset (h : ∀ e ∈ m, e.isSent = true → e ∈ l) : NoneMarkedSent l m :=
  fun e he hs => ⟨e, h e he hs, rfl, hs⟩

theorem NoneMarkedSent.refl (l : List Entry) : NoneMarkedSent l l := .of_subset fun _ he _ => he

theorem NoneMarkedSent.trans (hlm : NoneMarkedSent l m) (hmn : NoneMarkedSent m n) : NoneMarkedSent l n := by
  intro e'' he'' hs''
  obtain ⟨e', he', hid', hs'⟩ := hmn e'' he'' hs''
  obtain ⟨e, he, hid, hs⟩ := hlm e' he' hs'
  exact ⟨e, he, hid.trans hid', hs⟩

/-- A slot may get an entry with the same id that is sent only if the one before was. -/
theorem NoneMarkedSent.set {i : Nat} {e e' : Entry} (he : l[i]? = some e) (hid : e.id = e'.id)
    (hs : e'.isSent = true → e.isSent = true) : NoneMarkedSent l (l.set i e') := by
  intro x hx hxs
  rcases List.mem_or_eq_of_mem_set hx with hx | rfl
  · exact ⟨x, hx, rfl, hxs⟩
  · exact ⟨e, List.mem_of_getElem? he, hid, hs hxs⟩

end

/-- A retry leaves its entry unsent (R219). -/
theorem State.retryOrDrop_noneMarkedSent {s : State} {i : Nat} {e : Entry} (he : s.slots[i]? = some e)
    (cause : RetryCause) : NoneMarkedSent s.slots (s.retryOrDrop i e cause).2.slots := by
  rcases s.retryOrDrop_cases i e cause with ⟨-, h⟩ | ⟨-, c, -, h⟩ <;> rw [h]
  · exact .of_subset fun x hx _ => mem_of_mem_swapRemove hx
  · exact .set he rfl fun hs => nomatch hs

theorem State.expire_noneMarkedSent (s : State) : NoneMarkedSent s.slots s.expire.2.slots :=
  State.expireFrom_induct (fun t => NoneMarkedSent s.slots t.slots)
    (fun _ _ _ ht he _ => ht.trans (State.retryOrDrop_noneMarkedSent he .timeout)) _ _ _ s (.refl _)

theorem State.harvest_noneMarkedSent (s : State) : NoneMarkedSent s.slots s.harvest.2.slots :=
  State.harvestFrom_induct (fun t => NoneMarkedSent s.slots t.slots) (fun _ ht => ht)
    (fun _ _ _ ht _ _ _ => ht.trans (.of_subset fun _ hx _ => mem_of_mem_swapRemove hx))
    (fun _ _ _ ht he _ _ => ht.trans (State.retryOrDrop_noneMarkedSent he .mismatch)) _ _ _ s (.refl _)

/-- ENQUEUE makes an unsent entry (R216). -/
theorem State.enqueueCommand_noneMarkedSent (s : State) (c : Bool) :
    NoneMarkedSent s.slots (s.enqueueCommand c).slots := by
  refine .of_subset fun e he hs => ?_
  rcases State.mem_enqueueCommand he with hold | ⟨id, -, -, rfl⟩
  · exact hold
  · exact nomatch hs

/-- A response goes into an entry that is sent already (R218). -/
theorem State.matchResponse_noneMarkedSent (s : State) (d : List Byte) :
    NoneMarkedSent s.slots (s.matchResponse d).2.slots := by
  rcases s.matchResponse_cases d with ⟨i, hi, h⟩ | ⟨-, h⟩ <;> rw [h]
  · obtain ⟨hlt, -, -⟩ := List.findIdx?_eq_some_iff_getElem.1 hi
    have hget : s.slots[i]? = some s.slots[i] := List.getElem?_eq_getElem hlt
    simp only [List.modify_eq_set_getElem?, hget]
    exact .set hget rfl fun hs => hs
  · exact .refl _

theorem CmdEffect.noneMarkedSent {s t : State} (h : CmdEffect s t) : NoneMarkedSent s.slots t.slots := by
  cases h with
  | enqueue c => exact s.enqueueCommand_noneMarkedSent c
  | expire w => exact s.expire_noneMarkedSent
  | maintain => exact s.expire_noneMarkedSent
  | harvest w => exact s.harvest_noneMarkedSent
  | _ => exact .refl _

/-- A frame marks an entry sent only where the arbiter starts a transmission (R252, R253). -/
theorem FrameEffect.noneMarkedSent_or_tx {r : List Byte} {s t : State} (h : FrameEffect r s t) :
    NoneMarkedSent s.slots t.slots ∨ t.eng = .tx := by
  cases h with
  | record k => rw [State.finishFrame_slots]; exact .inl (.refl _)
  | discard k c => rw [State.bump_slots, State.finishFrame_slots]; exact .inl (.refl _)
  | sync fnr =>
    rcases State.arbitrate_cases ((s.finishFrame .sync r false).bump .sync) fnr with ⟨-, h⟩ | ⟨i, e, -, -, h⟩
    · rw [h, State.bump_slots, State.finishFrame_slots]; exact .inl (.refl _)
    · rw [h]; exact .inr rfl
  | response _ => rw [State.finishFrame_slots]; exact .inl (s.matchResponse_noneMarkedSent _)

theorem AgentEffect.noneMarkedSent_or_release {s t : State} {a : Agent} (h : AgentEffect s a t) :
    NoneMarkedSent s.slots t.slots ∨ (s.eng = .rx ∧ t.eng = .tx) := by
  cases h with
  | frame q t he _ _ ht => exact ht.noneMarkedSent_or_tx.imp_right fun htx => ⟨he, htx⟩
  | finish => exact .inl s.harvest_noneMarkedSent
  | command op q t _ _ ht => exact .inl ht.noneMarkedSent
  | read => rw [State.hostRead_frame]; exact .inl (.refl _)
  | write => rw [State.hostWrite_frame]; exact .inl (.refl _)
  | request p q =>
    have hstage : (State.stage { s with hostq := q } p).slots = s.slots := by rw [State.stage_frame]
    have hnew := (State.stage { s with hostq := q } p).enqueueCommand_noneMarkedSent p.coalesce
    rw [hstage] at hnew
    exact .inl hnew
  | wireRx => rw [State.wireRxStep_frame]; exact .inl (.refl _)
  | rst => exact .inl fun _ he => absurd he List.not_mem_nil
  | _ => exact .inl (.refl _)

/-- Settles O50, by cases on the agents' effects. -/
theorem onlyTheArbiterMarksAnEntrySent : Obligations.OnlyTheArbiterMarksAnEntrySent := by
  intro s t e' h he' hs'
  obtain ⟨a, -, ha⟩ := step_agentEffect h
  exact ha.noneMarkedSent_or_release.imp_left fun hnone => hnone e' he' hs'

end Sys2Proof.Machine
end

section
/-! PROOFS. The ENGINE's turn outside RX (R254, R256 to R258), WIRE_TX's (R259) and the CLOCK's (R42). -/

namespace Sys2Proof.Machine

/-- The ENGINE's turn. -/
theorem step_engine {s : State} {rest : List Agent} (hs : s.sched = .engine :: rest) :
    step s = State.engineStep { s with sched := rest } := step_scheduled hs

section
variable {s : State}

/-- With room in `txq` the next byte of the frame is handed over (R254). -/
theorem State.engineStep_push {b : Byte} (he : s.eng = .tx) (hq : s.txq.length < s.cfg.txFifoDepth)
    (hb : s.txbuf[s.txIdx]? = some b) :
    s.engineStep = .next { s with
      txq := s.txq ++ [b]
      txIdx := s.txIdx + 1
      eng := if s.txIdx + 1 = s.txbuf.length then .flush else .tx } := by
  simp only [State.engineStep, he, State.engineTx, if_pos hq, hb]

theorem State.engineStep_full (he : s.eng = .tx) (hq : s.txq.length = s.cfg.txFifoDepth) :
    s.engineStep = .next s := by
  simp only [State.engineStep, he, State.engineTx, if_neg (Nat.not_lt.2 hq.ge)]

theorem State.engineStep_flushed (he : s.eng = .flush) (hq : s.txq = []) :
    s.engineStep = .next { s with dir := false, eng := .rx } := by
  simp only [State.engineStep, he, State.engineFlush, if_pos hq]

theorem State.engineStep_flushing (he : s.eng = .flush) (hq : s.txq ≠ []) : s.engineStep = .next s := by
  simp only [State.engineStep, he, State.engineFlush, if_neg hq]

theorem State.engineStep_unpaused (he : s.eng = .paused) (hp : s.pause = false) :
    s.engineStep = .next { s with eng := .resume } := by
  simp only [State.engineStep, he, State.enginePaused, if_neg (Bool.eq_false_iff.1 hp)]

theorem State.engineStep_paused (he : s.eng = .paused) (hp : s.pause = true) : s.engineStep = .next s := by
  simp only [State.engineStep, he, State.enginePaused, if_pos hp]

theorem State.engineStep_resumed (he : s.eng = .resume) (hq : s.txq = []) :
    s.engineStep = .next { s with eng := .rx } := by
  simp only [State.engineStep, he, State.engineResume, if_pos hq]

theorem State.engineStep_resuming (he : s.eng = .resume) (hq : s.txq ≠ []) : s.engineStep = .next s := by
  simp only [State.engineStep, he, State.engineResume, if_neg hq]

end

/-- Settles O34: a TX FIFO with room, and a full one. -/
theorem engineTransmitsOneByte : Obligations.EngineTransmitsOneByte := by
  intro s rest b hs he
  rw [step_engine hs]
  refine ⟨fun hroom hb => ?push, fun hfull => ?full⟩
  case push => rw [State.engineStep_push]; exacts [he, hroom, hb]
  case full => rw [State.engineStep_full]; exacts [he, hfull]

/-- Settles O35: each of the three states, when it is left and when it waits. -/
theorem engineWaitsInFlushPausedAndResume : Obligations.EngineWaitsInFlushPausedAndResume := by
  intro s rest hs
  rw [step_engine hs]
  refine ⟨fun he hq => ?flushed, fun he hq => ?flushing, fun he hp => ?unpaused, fun he hp => ?paused,
    fun he hq => ?resumed, fun he hq => ?resuming⟩
  case flushed => rw [State.engineStep_flushed]; exacts [he, hq]
  case flushing => rw [State.engineStep_flushing]; exacts [he, hq]
  case unpaused => rw [State.engineStep_unpaused]; exacts [he, hp]
  case paused => rw [State.engineStep_paused]; exacts [he, hp]
  case resumed => rw [State.engineStep_resumed]; exacts [he, hq]
  case resuming => rw [State.engineStep_resuming]; exacts [he, hq]

theorem State.wireTxStep_empty {s : State} (hq : s.txq = []) : s.wireTxStep = s := by
  simp only [State.wireTxStep, hq]

theorem State.wireTxStep_byte {s : State} {b : Byte} {q : List Byte} (hq : s.txq = b :: q) :
    s.wireTxStep = { s with txq := q, txlog := s.txlog ++ [b] } := by
  simp only [State.wireTxStep, hq]

/-- WIRE_TX's turn (R259). -/
theorem step_wireTx {s : State} {rest : List Agent} (hs : s.sched = .wireTx :: rest) :
    step s = .next (State.wireTxStep { s with sched := rest }) := step_scheduled hs

/-- The CLOCK's turn (R42). -/
theorem step_clock {s : State} {rest : List Agent} (hs : s.sched = .clock :: rest) :
    step s = .next (State.clockStep { s with sched := rest }) := step_scheduled hs

/-- Settles O37: WIRE_TX with a byte and without one, and the CLOCK. -/
theorem wireTxAndClockSteps : Obligations.WireTxAndClockSteps := by
  intro s rest
  refine ⟨fun b q hs hq => ?byte, fun hs hq => ?empty, fun hs => ?clock⟩
  case byte => rw [step_wireTx hs, State.wireTxStep_byte]; exact hq
  case empty => rw [step_wireTx hs, State.wireTxStep_empty]; exact hq
  case clock => exact step_clock hs

end Sys2Proof.Machine
end

section
/-! PROOFS. The host commands beside ENQUEUE (R281, R285 to R289): RESULT, the FIFO heads, and the two steps of MAINTAIN. -/

namespace Sys2Proof.Machine

/-! RESULT (R39, R321). -/

/-- A command's error is its code in RESULT, and nothing else (R13, R321). -/
theorem State.raise_eq_setResult (s : State) {e : Event} {c : ResultCode} (hc : e.counter = none)
    (hr : e.result = some c) : s.raise e = s.setResult (resultOf c) := by
  rw [State.raise, hc, hr]

theorem resultOf_ok : resultOf .ok = 0x00000000#32 := by decide

theorem resultOf_empty : resultOf .empty = 0x00000004#32 := by decide

theorem resultOf_illegal : resultOf .illegal = 0x00000005#32 := by decide

theorem exec_nop (s : State) : exec .nop s = .next (s.setResult 0x00000000#32) := by
  rw [← resultOf_ok]
  rfl

theorem exec_reserved (op : Byte) (s : State) : exec (.reserved op) s = .next (s.setResult 0x00000005#32) := by
  rw [← resultOf_illegal, ← s.raise_eq_setResult (e := .illegalCmd) rfl rfl]
  rfl

theorem exec_clrCounters (s : State) :
    exec .clrCounters s = .next { s with counters := Counters.zero, result := 0x00000000#32 } := by
  rw [← resultOf_ok]
  rfl

/-- Settles O1: the three commands, and every counter of the cleared ones. -/
theorem resultCommandsChangeNothingElse : Obligations.ResultCommandsChangeNothingElse := by
  intro s op
  exact ⟨exec_nop s, exec_reserved op s, _, exec_clrCounters s, Counters.get_zero, rfl⟩

/-! The POPs (R286, R287). -/

section
variable {s : State}

theorem exec_popResp_empty (h : s.respq = []) : exec .popResp s = .next (s.setResult 0x00000004#32) := by
  rw [← resultOf_empty, ← s.raise_eq_setResult (e := .empty) rfl rfl]
  simp only [exec, execPopResp, h]

theorem exec_popResp_head {e : RespRec} {q : List RespRec} (h : s.respq = e :: q) :
    exec .popResp s = .next { s with respq := q, result := 0x00000000#32 } := by
  simp only [exec, execPopResp, h, resultOf_ok]

theorem exec_popRaw_empty (h : s.rawq = []) : exec .popRaw s = .next (s.setResult 0x00000004#32) := by
  rw [← resultOf_empty, ← s.raise_eq_setResult (e := .empty) rfl rfl]
  simp only [exec, execPopRaw, h]

theorem exec_popRaw_head {f : RawRec} {q : List RawRec} (h : s.rawq = f :: q) :
    exec .popRaw s = .next { s with rawq := q, result := 0x00000000#32 } := by
  simp only [exec, execPopRaw, h, resultOf_ok]

end

/-- Settles O2: each FIFO, empty and with a head. -/
theorem popTakesTheHead : Obligations.PopTakesTheHead := fun _ =>
  ⟨exec_popResp_empty, fun _ _ => exec_popResp_head, exec_popRaw_empty, fun _ _ => exec_popRaw_head⟩

/-! MAINTAIN (R285). -/

theorem exec_expire (s : State) : exec .expire s = .next (s.expire.2.setResult (resultCount s.expire.1)) := rfl

theorem exec_maintain (s : State) : exec .maintain s = .next { s.expire.2 with maint := true } := rfl

theorem exec_harvest (s : State) : exec .harvest s = .next (s.harvest.2.setResult (resultCount s.harvest.1)) := rfl

/-- The scan of EXPIRE leaves RESULT alone: the command EXPIRE writes it after the scan. -/
@[simp] theorem State.expire_result (s : State) : s.expire.2.result = s.result := by rw [s.expire_frame]

/-- Settles O11: MAINTAIN's first step is the scan of EXPIRE, which keeps RESULT. -/
theorem maintainExpiresFirst : Obligations.MaintainExpiresFirst := by
  intro s
  refine ⟨_, exec_expire s, ?_⟩
  rw [exec_maintain, ← s.expire_result]
  rfl

/-- The HOST's turn. -/
theorem step_host {s : State} {rest : List Agent} (hs : s.sched = .host :: rest) :
    step s = State.hostStep { s with sched := rest } := step_scheduled hs

/-- Between the two steps of MAINTAIN the HOST's turn is the second one, whatever access comes next (R285). -/
theorem State.hostStep_maintain {s : State} (hm : s.maint = true) : s.hostStep = .next s.maintainFinish := if_pos hm

/-- Settles O12: MAINTAIN's second step is HARVEST's scan and RESULT, out of MAINTAIN. -/
theorem maintainHarvestsSecond : Obligations.MaintainHarvestsSecond := by
  intro s rest hm hs
  refine ⟨_, exec_harvest _, ?_⟩
  rw [step_host hs, State.hostStep_maintain (s := { s with sched := rest }) hm]
  rfl

end Sys2Proof.Machine
end

section
/-! PROOFS. A step runs what it fetches: a command word, a completed frame, a request (R173, R175, R176, R280; log 8). -/

namespace Sys2Proof.Machine

/-- The word index of CMD (R61, R64). -/
theorem inBlock_regAt_cmd {a : Word} (h : a.toNat / 4 = 3) : inBlock a = true ∧ regAt a = .cmd := by
  refine ⟨(inBlock_iff a).2 (by omega), ?_⟩
  rw [regAt, h]
  rfl

/-- The terminator completes the frame, whose kind runs in the same step (R173, R175, R176). -/
theorem State.intake_terminator (s : State) :
    s.intake endOfFrame = exec (decodeFrame s.chkEnforce (s.rxbuf ++ [endOfFrame]))
      { s with rxbuf := s.rxbuf ++ [endOfFrame] } := by
  simp only [State.intake, if_pos]

/-- Outside MAINTAIN the HOST's turn is its next access (R280). -/
theorem State.hostStep_access {s : State} {op : HostOp} {q : List HostOp} (hm : s.maint = false)
    (hq : s.hostq = op :: q) : s.hostStep = State.hostAccess { s with hostq := q } op := by
  rw [State.hostStep, hm, if_neg Bool.false_ne_true, hq]

/-- A request that decodes runs as its payload command (log 8). -/
theorem State.hostAccess_payload (s : State) {p : Request} {i : Instr} (h : decodeRequest p = some i) :
    s.hostAccess (.request p) = exec i s := by
  simp only [State.hostAccess, h]

/-- A frame with its terminator is decoded as a completed frame (R175). -/
theorem decode_frame_terminated (enforce : Bool) (buf : List Byte) :
    decode enforce (.frame (buf ++ [endOfFrame])) = .ok (decodeFrame enforce (buf ++ [endOfFrame])) :=
  if_pos List.getLast?_concat

/-- Only a payload command's request decodes. -/
theorem decodeRequest_of_decode {enforce : Bool} {p : Request} {i : Instr} (h : decode enforce (.request p) = .ok i) :
    decodeRequest p = some i := by
  rw [decode] at h
  split at h
  next hp => rw [hp, Except.ok.inj h]
  · cases h

/-- Settles O22: the three places a step fetches from. -/
theorem stepRunsTheDecodedInstruction : Obligations.StepRunsTheDecodedInstruction := by
  intro s rest i
  refine ⟨fun a w q hs hm hq ha hdec => ?command, fun q hs he hp hq hdec => ?frame, fun p q hs hm hq hdec => ?request⟩
  case command =>
    have hw : decodeCmd w = i := Except.ok.inj hdec
    rw [step_hostCommand hs hm hq (inBlock_regAt_cmd ha), hw]
  case frame =>
    have hr : decodeFrame s.chkEnforce (s.rxbuf ++ [endOfFrame]) = i :=
      Except.ok.inj ((decode_frame_terminated _ _).symm.trans hdec)
    rw [step_engineRx hs he, State.engineRx_byte (s := { s with sched := rest }) hp hq, ← hr]
    exact State.intake_terminator _
  case request =>
    rw [step_host hs, State.hostStep_access (s := { s with sched := rest }) hm hq,
      State.hostAccess_payload _ (decodeRequest_of_decode hdec)]

end Sys2Proof.Machine
end

section
/-! PROOFS. No step stops: VBFE has no traps (R320, R327). The one fault of the model is the ENGINE's in TX with `tx_idx`
past the frame (log 9); every other turn answers a next state from any state whatever. -/

namespace Sys2Proof.Machine

/-- Whatever the byte, the ENGINE takes it in: a completed frame has a kind, and every kind has a meaning (R173 to R176). -/
theorem State.intake_answers (s : State) (b : Byte) : ∃ t, s.intake b = .next t := by
  by_cases hb : b = endOfFrame
  · subst hb
    obtain ⟨t, ht, -⟩ := exec_frame (decodeFrame_isFrame s.chkEnforce (s.rxbuf ++ [endOfFrame]))
      decodeFrame_response_length { s with rxbuf := s.rxbuf ++ [endOfFrame] }
    exact ⟨t, s.intake_terminator.trans ht⟩
  · by_cases hl : s.rxbuf.length + 1 = s.cfg.maxBufferSize
    · exact ⟨_, State.intake_overflow hb hl⟩
    · exact ⟨_, State.intake_append hb hl⟩

theorem State.engineRx_answers (s : State) : ∃ t, s.engineRx = .next t := by
  cases hp : s.pause with
  | true => exact ⟨_, State.engineRx_paused hp⟩
  | false =>
    cases hq : s.rxq with
    | nil => exact ⟨_, State.engineRx_idle hp hq⟩
    | cons b q => rw [State.engineRx_byte hp hq]; exact State.intake_answers _ b

/-- In TX the byte at `tx_idx` is there to hand over (R254). -/
theorem State.engineTx_answers {s : State} (h : s.txIdx < s.txbuf.length) : ∃ t, s.engineTx = .next t := by
  unfold State.engineTx
  rw [List.getElem?_eq_getElem h]
  split <;> exact ⟨_, rfl⟩

/-- The ENGINE's turn, by the state it is in (R22). -/
theorem State.engineStep_answers {s : State} (h : s.eng = .tx → s.txIdx < s.txbuf.length) :
    ∃ t, s.engineStep = .next t := by
  unfold State.engineStep
  cases he : s.eng with
  | rx => exact s.engineRx_answers
  | tx => exact State.engineTx_answers (h he)
  | flush => exact ⟨_, rfl⟩
  | paused => exact ⟨_, rfl⟩
  | resume => exact ⟨_, rfl⟩

/-- Every access of the HOST is answered: every word is a command, and a request needs no decoding (R115, R123, R289). -/
theorem State.hostAccess_answers (s : State) (op : HostOp) : ∃ t, s.hostAccess op = .next t := by
  cases op with
  | read a => exact ⟨_, rfl⟩
  | write a w =>
    rw [State.hostAccess]
    split
    · obtain ⟨t, ht, -⟩ := exec_command (decodeCmd_isCommand w) s
      exact ⟨t, ht⟩
    · exact ⟨_, rfl⟩
  | request q => exact ⟨_, s.hostAccess_request q⟩

theorem State.hostStep_answers (s : State) : ∃ t, s.hostStep = .next t := by
  cases hm : s.maint with
  | true => exact ⟨_, State.hostStep_maintain hm⟩
  | false =>
    cases hq : s.hostq with
    | nil => exact ⟨s, by rw [State.hostStep, hm, if_neg Bool.false_ne_true, hq]⟩
    | cons op q => rw [State.hostStep_access hm hq]; exact State.hostAccess_answers _ op

/-- Every agent's turn is answered while TX stays inside its frame (R8). -/
theorem State.runAgent_answers {s : State} (h : s.eng = .tx → s.txIdx < s.txbuf.length) (a : Agent) :
    ∃ t, s.runAgent a = .next t := by
  cases a with
  | engine => exact State.engineStep_answers h
  | host => exact s.hostStep_answers
  | wireRx => rw [State.runAgent]; split <;> exact ⟨_, rfl⟩
  | wireTx => exact ⟨_, rfl⟩
  | clock => exact ⟨_, rfl⟩
  | rst => exact ⟨_, rfl⟩

/-- Settles O48: of the turnaround invariant only `tx_idx` inside the frame in TX is needed, whichever agent moves. -/
theorem noEventStopsTheMachine : Obligations.NoEventStopsTheMachine := by
  intro s hs
  cases hsched : s.sched with
  | nil =>
    obtain ⟨t, ht⟩ := State.runAgent_answers hs.txIdxInFrame s.defaultAgent
    exact ⟨t, by simp only [step, State.schedStep, hsched, ht]⟩
  | cons a rest =>
    obtain ⟨t, ht⟩ := State.runAgent_answers (s := { s with sched := rest }) hs.txIdxInFrame a
    exact ⟨t, (step_scheduled hsched).trans ht⟩

end Sys2Proof.Machine
end

section
/-! PROOFS. Reset (R350 to R353): the reset step, the register map after reset, and the invariants. -/

namespace Sys2Proof.Machine

/-! STATUS and the counters (R38, R40). -/

/-- With nothing queued, assembled or registered and the ENGINE in RX, STATUS holds TX_IDLE alone (R38, R350). -/
theorem State.status_of_cleared {s : State} (heng : s.eng = .rx) (hrxbuf : s.rxbuf = []) (htxq : s.txq = [])
    (hdir : s.dir = false) (hslots : s.slots = []) (hresp : s.respq = []) (hraw : s.rawq = []) :
    s.status = 0x00000004#32 := by
  rw [s.status_eq_or, heng, hrxbuf, htxq, hdir, hslots, hresp, hraw]
  decide

theorem State.resetWith_status (c : Config) (now : Word) : (State.resetWith c now).status = 0x00000004#32 :=
  State.status_of_cleared rfl rfl rfl rfl rfl rfl rfl

/-- Every word of the cleared ENQ_PAYLOAD is 0 (R36, R350). -/
theorem State.resetWith_enqPayload (c : Config) (now : Word) (k : Fin 8) :
    (State.resetWith c now).enqPayload[k] = 0#32 := by
  have hwords : (State.resetWith c now).enqPayload = Vector.replicate 8 0#32 := rfl
  simp [hwords]

/-! The reset step (R350, R351). -/

/-- Settles O38: the turn of the reset input, field by field. -/
theorem resetStepClearsTheBlock : Obligations.ResetStepClearsTheBlock := by
  intro s rest hs
  have hstep : step s = .next (State.rstStep { s with sched := rest }) := step_scheduled hs
  have hstatus : (State.rstStep { s with sched := rest }).status = 0x00000004#32 :=
    State.status_of_cleared rfl rfl rfl rfl rfl rfl rfl
  exact ⟨_, hstep, rfl, rfl, rfl, rfl, rfl, rfl, rfl, rfl, rfl, rfl, rfl, rfl, rfl,
    State.resetWith_enqPayload s.cfg s.nowMs, rfl, hstatus, rfl, Counters.get_zero, rfl, rfl, rfl⟩

/-! The register map after reset (R64). -/

/-- The reset column of the register map (R64); NOW_MS shows the input's value. -/
def Reg.resetValue (now : Word) : Reg → Word
  | .status => 0x00000004#32
  | .idCtr => 0x00000080#32
  | .nowMs => now
  | _ => 0#32

/-- After reset every register reads as the reset column says, whatever the parameters and the clock. -/
theorem State.readReg_resetWith (c : Config) (now : Word) (r : Reg) :
    (State.resetWith c now).readReg r = r.resetValue now := by
  cases r with
  | status => exact State.resetWith_status c now
  | enqPayload k => exact State.resetWith_enqPayload c now k
  | cnt c => exact Counters.get_zero c
  | respBytes k => exact (State.respWindow_nil (s := State.resetWith c now) rfl k).2.2
  | rawBytes k => exact (State.rawWindow_nil (s := State.resetWith c now) rfl k).2
  | _ => rfl

theorem Reg.resetValue_eq_zero {r : Reg} (hstatus : r ≠ .status) (hctr : r ≠ .idCtr) (hnow : r ≠ .nowMs)
    (now : Word) : r.resetValue now = 0#32 := by
  cases r with
  | status => exact absurd rfl hstatus
  | idCtr => exact absurd rfl hctr
  | nowMs => exact absurd rfl hnow
  | _ => rfl

/-- The registers whose reset value is not 0 stand at one word index each. -/
theorem regOfIndex_nonzeroReset (n : Fin 128) :
    (regOfIndex n = .status ↔ n.val = 1) ∧ (regOfIndex n = .idCtr ↔ n.val = 4) ∧
      (regOfIndex n = .nowMs ↔ n.val = 5) := by
  revert n
  decide

/-- By word index, the reset column is 0 but for STATUS, ID_CTR and NOW_MS. -/
theorem Reg.resetValue_regOfIndex (now : Word) {n : Nat} (hlt : n < 128) (hn : n ≠ 5) :
    (regOfIndex n).resetValue now = if n = 1 then 0x00000004#32 else if n = 4 then 0x00000080#32 else 0#32 := by
  obtain ⟨hstatus, hctr, hnow⟩ := regOfIndex_nonzeroReset ⟨n, hlt⟩
  split_ifs with h1 h4
  · rw [hstatus.2 h1]; rfl
  · rw [hctr.2 h4]; rfl
  · exact Reg.resetValue_eq_zero (mt hstatus.1 h1) (mt hctr.1 h4) (mt hnow.1 hn) now

theorem regAt_ofNat {a : Nat} (h : a < 0x200) : regAt (BitVec.ofNat 32 a) = regOfIndex (a / 4) := by
  rw [regAt, BitVec.toNat_ofNat, Nat.mod_eq_of_lt (by omega)]

/-- Settles O39: the register at the offset's word index reads its value in the reset column. -/
theorem resetRegistersReadAsTheMapSays : Obligations.ResetRegistersReadAsTheMapSays := by
  intro a ha hnow
  rw [regAt_ofNat ha, State.reset, State.readReg_resetWith, Reg.resetValue_regOfIndex _ (by omega) hnow]

/-! The invariants after reset (R350, R352). -/

theorem Config.reference_valid : Config.reference.Valid := by decide

theorem RegistryInv.resetWith {c : Config} (h : c.Valid) (now : Word) : RegistryInv (State.resetWith c now) where
  cfgValid := h
  entries := fun _ he => absurd he List.not_mem_nil
  rxbufShort := by
    obtain ⟨-, ⟨hmin, -⟩, -⟩ := h
    exact Nat.lt_of_lt_of_le (Nat.zero_lt_succ 18) hmin
  rxbufOpen := List.not_mem_nil

theorem CapacityInv.resetWith (c : Config) (now : Word) : CapacityInv (State.resetWith c now) :=
  ⟨Nat.zero_le _, Nat.zero_le _, Nat.zero_le _, Nat.zero_le _, Nat.zero_le _⟩

/-- After reset the ENGINE is in RX with DIR 0 and `txq` empty (R352). -/
theorem TurnaroundInv.resetWith (c : Config) (now : Word) : TurnaroundInv (State.resetWith c now) :=
  (turnaroundInv_iff _).2 ((TxSide.inOrder_of_receiving (by simp [State.txSide, State.resetWith])).2 ⟨rfl, rfl⟩)

theorem HostRegInv.resetWith (c : Config) (now : Word) : HostRegInv (State.resetWith c now) :=
  ⟨BitVec.zero_and, BitVec.zero_and, BitVec.zero_and⟩

/-- Settles O51: each invariant holds after reset for all parameters R9 admits, the reference ones among them. -/
theorem resetMeetsTheInvariants : Obligations.ResetMeetsTheInvariants :=
  ⟨stepKeepsIdsUnique.1 _ _, .resetWith Config.reference_valid _, .resetWith _ _, .resetWith _ _, .resetWith _ _⟩

end Sys2Proof.Machine
end
